-- ==== Sys2Proof/Word.lean ====
section
/-! DEFINITION. The word types of the core: the 64-bit register word, the byte, and the four fields of an
instruction slot (spec/00_scope.md R6 and R16, spec/30_encoding.md R82). -/

namespace Sys2Proof

/-- A register value: the spec's `u64` (R16, R21). -/
abbrev Word := BitVec 64

/-- One byte of either memory region or of the program image (R31). -/
abbrev Byte := BitVec 8

/-- A `dst` or `src` field of a slot: four bits, of which only the values 0 to 10 name a register (R23, R82). -/
abbrev RegField := BitVec 4

/-- The `off` field of a slot, 16 bits (R82). -/
abbrev OffField := BitVec 16

/-- The `imm` field of a slot, 32 bits (R82). -/
abbrev ImmField := BitVec 32

end Sys2Proof
end

