-- ==== Sys2Proof/Config.lean ====
section
/-! DEFINITION. What is fixed for a run and what the spec leaves free: the numeric parameters of spec/00_scope.md
R7 and R8 with their constraints and reference values, the shape of a registered helper (R13, R220), and the two
free values of the model, which have no body so that no proof can learn them: what a native helper computes, and
what the Stack holds at reset (R37, R302). -/

namespace Sys2Proof

/-- FREE VALUE. What the host's native function number `n` returns for its five arguments. The spec says a helper is
a total function of five 64-bit arguments and says nothing of which function (R220); log entry 6. -/
opaque Config.nativeHelper : Nat → Word → Word → Word → Word → Word → Word

/-- FREE VALUE. The byte `STACK_INIT[k]` that the Stack holds at reset: "a claim must hold for every value"
(R8, R37, R302); log entry 4. -/
opaque Config.stackInit : Nat → Byte

/-- A function the host may register (R13, R14, R220). `native n` is the host's function number `n`, about which
nothing is known. `sumArgs` and `fifthArg` are the two helpers that the spec's own examples and vectors register
(spec/44_call_exit.md R221, spec/97_test_vectors_derived_2.md section 5): the sum of the five arguments modulo 2^64,
and the fifth argument. -/
inductive Helper where
  | native (n : Nat)
  | sumArgs
  | fifthArg
  deriving DecidableEq, Repr

/-- The numeric parameters of a run (R7, R8): fixed before reset, changed neither by reset nor by the run (R303). -/
structure Params where
  /-- `MEM_BASE`: the data address of byte 0 of the Address Space. -/
  memBase : Word
  /-- `MEM_SIZE`: the number of bytes of the Address Space. -/
  memSize : Nat
  /-- `STACK_BASE`: the data address of byte 0 of the Stack. -/
  stackBase : Word
  /-- `STACK_SIZE`: the number of bytes of the Stack. -/
  stackSize : Nat
  /-- `BUDGET`: a bound on the number of executed instructions, or none (R122). -/
  budget : Option Nat
  deriving DecidableEq, Repr

/-- The reference configuration (R7, R8, R314): sizes 1024 and 128, bases 0 and 0x1000, no budget. -/
def Params.reference : Params :=
  { memBase := 0x0000000000000000#64, memSize := 1024,
    stackBase := 0x0000000000001000#64, stackSize := 128, budget := none }

/-- The two regions share no data address (the constraint of R8 on `STACK_BASE`). -/
abbrev Params.disjoint (p : Params) : Prop :=
  p.memSize = 0 ∨ p.stackSize = 0 ∨ p.memBase.toNat + p.memSize ≤ p.stackBase.toNat
    ∨ p.stackBase.toNat + p.stackSize ≤ p.memBase.toNat

/-- The constraints of R8: both regions lie inside the 64-bit space, the end of the Stack is itself an address, and
the regions do not overlap. -/
abbrev Params.legal (p : Params) : Prop :=
  p.memBase.toNat + p.memSize ≤ 2 ^ 64 ∧ p.stackBase.toNat + p.stackSize ≤ 2 ^ 64 - 1 ∧ p.disjoint

end Sys2Proof
end

