-- ==== Sys2Proof/Syntax.lean ====
section
/-! DEFINITION. The instruction set: one constructor for each of the 98 rows of spec/opcode_table.json (R2, R97),
holding exactly the fields that the row's form uses (R83). A field that the form ignores is not part of the
instruction, because it may hold any bits and changes nothing (R83, R94).

Register fields stay the raw 4-bit values of the slot: a value of 11 to 15 decodes like any other (R82) and it is the
step that tests it (R115). -/

namespace Sys2Proof

/-- The 98 instructions. The order is that of the tables of spec/30_encoding.md R88 to R91, family by family; a
docstring gives the assembler syntax of the row, its opcode byte, its form and the rule with its meaning. -/
inductive Instr where
  -- The 64-bit ALU instructions (spec/41_alu64.md).
  /-- `add64 dst, imm`, opcode `0x07`, form `ALU_I` (R134). -/
  | add64Imm (dst : RegField) (imm : ImmField)
  /-- `add64 dst, src`, opcode `0x0f`, form `ALU_R` (R135). -/
  | add64Reg (dst src : RegField)
  /-- `sub64 dst, imm`, opcode `0x17`, form `ALU_I` (R136). -/
  | sub64Imm (dst : RegField) (imm : ImmField)
  /-- `sub64 dst, src`, opcode `0x1f`, form `ALU_R` (R137). -/
  | sub64Reg (dst src : RegField)
  /-- `mul64 dst, imm`, opcode `0x27`, form `ALU_I` (R138). -/
  | mul64Imm (dst : RegField) (imm : ImmField)
  /-- `mul64 dst, src`, opcode `0x2f`, form `ALU_R` (R139). -/
  | mul64Reg (dst src : RegField)
  /-- `div64 dst, imm`, opcode `0x37`, form `ALU_I` (R140). -/
  | div64Imm (dst : RegField) (imm : ImmField)
  /-- `div64 dst, src`, opcode `0x3f`, form `ALU_R` (R141). -/
  | div64Reg (dst src : RegField)
  /-- `or64 dst, imm`, opcode `0x47`, form `ALU_I` (R142). -/
  | or64Imm (dst : RegField) (imm : ImmField)
  /-- `or64 dst, src`, opcode `0x4f`, form `ALU_R` (R143). -/
  | or64Reg (dst src : RegField)
  /-- `and64 dst, imm`, opcode `0x57`, form `ALU_I` (R144). -/
  | and64Imm (dst : RegField) (imm : ImmField)
  /-- `and64 dst, src`, opcode `0x5f`, form `ALU_R` (R145). -/
  | and64Reg (dst src : RegField)
  /-- `lsh64 dst, imm`, opcode `0x67`, form `ALU_I` (R146). -/
  | lsh64Imm (dst : RegField) (imm : ImmField)
  /-- `lsh64 dst, src`, opcode `0x6f`, form `ALU_R` (R147). -/
  | lsh64Reg (dst src : RegField)
  /-- `rsh64 dst, imm`, opcode `0x77`, form `ALU_I` (R148). -/
  | rsh64Imm (dst : RegField) (imm : ImmField)
  /-- `rsh64 dst, src`, opcode `0x7f`, form `ALU_R` (R149). -/
  | rsh64Reg (dst src : RegField)
  /-- `neg64 dst`, opcode `0x87`, form `ALU_U` (R150). -/
  | neg64 (dst : RegField)
  /-- `mod64 dst, imm`, opcode `0x97`, form `ALU_I` (R151). -/
  | mod64Imm (dst : RegField) (imm : ImmField)
  /-- `mod64 dst, src`, opcode `0x9f`, form `ALU_R` (R152). -/
  | mod64Reg (dst src : RegField)
  /-- `xor64 dst, imm`, opcode `0xa7`, form `ALU_I` (R153). -/
  | xor64Imm (dst : RegField) (imm : ImmField)
  /-- `xor64 dst, src`, opcode `0xaf`, form `ALU_R` (R154). -/
  | xor64Reg (dst src : RegField)
  /-- `mov64 dst, imm`, opcode `0xb7`, form `ALU_I` (R155). -/
  | mov64Imm (dst : RegField) (imm : ImmField)
  /-- `mov64 dst, src`, opcode `0xbf`, form `ALU_R` (R156). -/
  | mov64Reg (dst src : RegField)
  /-- `arsh64 dst, imm`, opcode `0xc7`, form `ALU_I` (R157). -/
  | arsh64Imm (dst : RegField) (imm : ImmField)
  /-- `arsh64 dst, src`, opcode `0xcf`, form `ALU_R` (R158). -/
  | arsh64Reg (dst src : RegField)
  -- The 32-bit ALU instructions (spec/42_alu32.md).
  /-- `add32 dst, imm`, opcode `0x04`, form `ALU_I` (R164). -/
  | add32Imm (dst : RegField) (imm : ImmField)
  /-- `add32 dst, src`, opcode `0x0c`, form `ALU_R` (R165). -/
  | add32Reg (dst src : RegField)
  /-- `sub32 dst, imm`, opcode `0x14`, form `ALU_I` (R166). -/
  | sub32Imm (dst : RegField) (imm : ImmField)
  /-- `sub32 dst, src`, opcode `0x1c`, form `ALU_R` (R167). -/
  | sub32Reg (dst src : RegField)
  /-- `mul32 dst, imm`, opcode `0x24`, form `ALU_I` (R168). -/
  | mul32Imm (dst : RegField) (imm : ImmField)
  /-- `mul32 dst, src`, opcode `0x2c`, form `ALU_R` (R169). -/
  | mul32Reg (dst src : RegField)
  /-- `div32 dst, imm`, opcode `0x34`, form `ALU_I` (R170). -/
  | div32Imm (dst : RegField) (imm : ImmField)
  /-- `div32 dst, src`, opcode `0x3c`, form `ALU_R` (R171). -/
  | div32Reg (dst src : RegField)
  /-- `or32 dst, imm`, opcode `0x44`, form `ALU_I` (R172). -/
  | or32Imm (dst : RegField) (imm : ImmField)
  /-- `or32 dst, src`, opcode `0x4c`, form `ALU_R` (R173). -/
  | or32Reg (dst src : RegField)
  /-- `and32 dst, imm`, opcode `0x54`, form `ALU_I` (R174). -/
  | and32Imm (dst : RegField) (imm : ImmField)
  /-- `and32 dst, src`, opcode `0x5c`, form `ALU_R` (R175). -/
  | and32Reg (dst src : RegField)
  /-- `lsh32 dst, imm`, opcode `0x64`, form `ALU_I` (R176). -/
  | lsh32Imm (dst : RegField) (imm : ImmField)
  /-- `lsh32 dst, src`, opcode `0x6c`, form `ALU_R` (R177). -/
  | lsh32Reg (dst src : RegField)
  /-- `rsh32 dst, imm`, opcode `0x74`, form `ALU_I` (R178). -/
  | rsh32Imm (dst : RegField) (imm : ImmField)
  /-- `rsh32 dst, src`, opcode `0x7c`, form `ALU_R` (R179). -/
  | rsh32Reg (dst src : RegField)
  /-- `neg32 dst`, opcode `0x84`, form `ALU_U` (R180). -/
  | neg32 (dst : RegField)
  /-- `mod32 dst, imm`, opcode `0x94`, form `ALU_I` (R181). -/
  | mod32Imm (dst : RegField) (imm : ImmField)
  /-- `mod32 dst, src`, opcode `0x9c`, form `ALU_R` (R182). -/
  | mod32Reg (dst src : RegField)
  /-- `xor32 dst, imm`, opcode `0xa4`, form `ALU_I` (R183). -/
  | xor32Imm (dst : RegField) (imm : ImmField)
  /-- `xor32 dst, src`, opcode `0xac`, form `ALU_R` (R184). -/
  | xor32Reg (dst src : RegField)
  /-- `mov32 dst, imm`, opcode `0xb4`, form `ALU_I` (R185). -/
  | mov32Imm (dst : RegField) (imm : ImmField)
  /-- `mov32 dst, src`, opcode `0xbc`, form `ALU_R` (R186). -/
  | mov32Reg (dst src : RegField)
  /-- `arsh32 dst, imm`, opcode `0xc4`, form `ALU_I` (R187). -/
  | arsh32Imm (dst : RegField) (imm : ImmField)
  /-- `arsh32 dst, src`, opcode `0xcc`, form `ALU_R` (R188). -/
  | arsh32Reg (dst src : RegField)
  -- The byte swaps (spec/46_byteswap.md).
  /-- `le<imm> dst`, opcode `0xd4`, form `END` (R261). -/
  | le (dst : RegField) (imm : ImmField)
  /-- `be<imm> dst`, opcode `0xdc`, form `END` (R262). -/
  | be (dst : RegField) (imm : ImmField)
  -- The jumps (spec/43_jump.md).
  /-- `ja off`, opcode `0x05`, form `JA` (R194). -/
  | ja (off : OffField)
  /-- `jeq dst, imm, off`, opcode `0x15`, form `JMP_I` (R195). -/
  | jeqImm (dst : RegField) (imm : ImmField) (off : OffField)
  /-- `jeq dst, src, off`, opcode `0x1d`, form `JMP_R` (R196). -/
  | jeqReg (dst src : RegField) (off : OffField)
  /-- `jgt dst, imm, off`, opcode `0x25`, form `JMP_I` (R197). -/
  | jgtImm (dst : RegField) (imm : ImmField) (off : OffField)
  /-- `jgt dst, src, off`, opcode `0x2d`, form `JMP_R` (R198). -/
  | jgtReg (dst src : RegField) (off : OffField)
  /-- `jge dst, imm, off`, opcode `0x35`, form `JMP_I` (R199). -/
  | jgeImm (dst : RegField) (imm : ImmField) (off : OffField)
  /-- `jge dst, src, off`, opcode `0x3d`, form `JMP_R` (R200). -/
  | jgeReg (dst src : RegField) (off : OffField)
  /-- `jset dst, imm, off`, opcode `0x45`, form `JMP_I` (R201). -/
  | jsetImm (dst : RegField) (imm : ImmField) (off : OffField)
  /-- `jset dst, src, off`, opcode `0x4d`, form `JMP_R` (R202). -/
  | jsetReg (dst src : RegField) (off : OffField)
  /-- `jne dst, imm, off`, opcode `0x55`, form `JMP_I` (R203). -/
  | jneImm (dst : RegField) (imm : ImmField) (off : OffField)
  /-- `jne dst, src, off`, opcode `0x5d`, form `JMP_R` (R204). -/
  | jneReg (dst src : RegField) (off : OffField)
  /-- `jsgt dst, imm, off`, opcode `0x65`, form `JMP_I` (R205). -/
  | jsgtImm (dst : RegField) (imm : ImmField) (off : OffField)
  /-- `jsgt dst, src, off`, opcode `0x6d`, form `JMP_R` (R206). -/
  | jsgtReg (dst src : RegField) (off : OffField)
  /-- `jsge dst, imm, off`, opcode `0x75`, form `JMP_I` (R207). -/
  | jsgeImm (dst : RegField) (imm : ImmField) (off : OffField)
  /-- `jsge dst, src, off`, opcode `0x7d`, form `JMP_R` (R208). -/
  | jsgeReg (dst src : RegField) (off : OffField)
  /-- `jlt dst, imm, off`, opcode `0xa5`, form `JMP_I` (R209). -/
  | jltImm (dst : RegField) (imm : ImmField) (off : OffField)
  /-- `jlt dst, src, off`, opcode `0xad`, form `JMP_R` (R210). -/
  | jltReg (dst src : RegField) (off : OffField)
  /-- `jle dst, imm, off`, opcode `0xb5`, form `JMP_I` (R211). -/
  | jleImm (dst : RegField) (imm : ImmField) (off : OffField)
  /-- `jle dst, src, off`, opcode `0xbd`, form `JMP_R` (R212). -/
  | jleReg (dst src : RegField) (off : OffField)
  /-- `jslt dst, imm, off`, opcode `0xc5`, form `JMP_I` (R213). -/
  | jsltImm (dst : RegField) (imm : ImmField) (off : OffField)
  /-- `jslt dst, src, off`, opcode `0xcd`, form `JMP_R` (R214). -/
  | jsltReg (dst src : RegField) (off : OffField)
  /-- `jsle dst, imm, off`, opcode `0xd5`, form `JMP_I` (R215). -/
  | jsleImm (dst : RegField) (imm : ImmField) (off : OffField)
  /-- `jsle dst, src, off`, opcode `0xdd`, form `JMP_R` (R216). -/
  | jsleReg (dst src : RegField) (off : OffField)
  -- Helper call and return (spec/44_call_exit.md).
  /-- `call imm`, opcode `0x85`, form `CALL` (R221). -/
  | call (imm : ImmField)
  /-- `exit`, opcode `0x95`, form `EXIT` (R223). -/
  | exit
  -- Wide-immediate load, loads and stores (spec/45_load_store.md).
  /-- `lddw dst, imm64`, opcode `0x18`, form `LDDW` (R231). -/
  | lddw (dst : RegField) (imm imm2 : ImmField)
  /-- `ldabsw imm`, opcode `0x20`, form `LDABS` (R232). -/
  | ldabsw (imm : ImmField)
  /-- `ldabsh imm`, opcode `0x28`, form `LDABS` (R233). -/
  | ldabsh (imm : ImmField)
  /-- `ldabsb imm`, opcode `0x30`, form `LDABS` (R234). -/
  | ldabsb (imm : ImmField)
  /-- `ldabsdw imm`, opcode `0x38`, form `LDABS` (R235). -/
  | ldabsdw (imm : ImmField)
  /-- `ldindw src, imm`, opcode `0x40`, form `LDIND` (R236). -/
  | ldindw (src : RegField) (imm : ImmField)
  /-- `ldindh src, imm`, opcode `0x48`, form `LDIND` (R237). -/
  | ldindh (src : RegField) (imm : ImmField)
  /-- `ldindb src, imm`, opcode `0x50`, form `LDIND` (R238). -/
  | ldindb (src : RegField) (imm : ImmField)
  /-- `ldinddw src, imm`, opcode `0x58`, form `LDIND` (R239). -/
  | ldinddw (src : RegField) (imm : ImmField)
  /-- `ldxw dst, [src+off]`, opcode `0x61`, form `LDX` (R240). -/
  | ldxw (dst src : RegField) (off : OffField)
  /-- `ldxh dst, [src+off]`, opcode `0x69`, form `LDX` (R241). -/
  | ldxh (dst src : RegField) (off : OffField)
  /-- `ldxb dst, [src+off]`, opcode `0x71`, form `LDX` (R242). -/
  | ldxb (dst src : RegField) (off : OffField)
  /-- `ldxdw dst, [src+off]`, opcode `0x79`, form `LDX` (R243). -/
  | ldxdw (dst src : RegField) (off : OffField)
  /-- `stw [dst+off], imm`, opcode `0x62`, form `ST` (R244). -/
  | stw (dst : RegField) (off : OffField) (imm : ImmField)
  /-- `sth [dst+off], imm`, opcode `0x6a`, form `ST` (R245). -/
  | sth (dst : RegField) (off : OffField) (imm : ImmField)
  /-- `stb [dst+off], imm`, opcode `0x72`, form `ST` (R246). -/
  | stb (dst : RegField) (off : OffField) (imm : ImmField)
  /-- `stdw [dst+off], imm`, opcode `0x7a`, form `ST` (R247). -/
  | stdw (dst : RegField) (off : OffField) (imm : ImmField)
  /-- `stxw [dst+off], src`, opcode `0x63`, form `STX` (R248). -/
  | stxw (dst : RegField) (off : OffField) (src : RegField)
  /-- `stxh [dst+off], src`, opcode `0x6b`, form `STX` (R249). -/
  | stxh (dst : RegField) (off : OffField) (src : RegField)
  /-- `stxb [dst+off], src`, opcode `0x73`, form `STX` (R250). -/
  | stxb (dst : RegField) (off : OffField) (src : RegField)
  /-- `stxdw [dst+off], src`, opcode `0x7b`, form `STX` (R251). -/
  | stxdw (dst : RegField) (off : OffField) (src : RegField)
  deriving DecidableEq, Repr

/-- The length of an instruction in slots: two for `lddw`, one for every other (R80, R94). -/
def Instr.slots : Instr → Nat
  | .lddw _ _ _ => 2
  | .add64Imm _ _ => 1
  | .add64Reg _ _ => 1
  | .sub64Imm _ _ => 1
  | .sub64Reg _ _ => 1
  | .mul64Imm _ _ => 1
  | .mul64Reg _ _ => 1
  | .div64Imm _ _ => 1
  | .div64Reg _ _ => 1
  | .or64Imm _ _ => 1
  | .or64Reg _ _ => 1
  | .and64Imm _ _ => 1
  | .and64Reg _ _ => 1
  | .lsh64Imm _ _ => 1
  | .lsh64Reg _ _ => 1
  | .rsh64Imm _ _ => 1
  | .rsh64Reg _ _ => 1
  | .neg64 _ => 1
  | .mod64Imm _ _ => 1
  | .mod64Reg _ _ => 1
  | .xor64Imm _ _ => 1
  | .xor64Reg _ _ => 1
  | .mov64Imm _ _ => 1
  | .mov64Reg _ _ => 1
  | .arsh64Imm _ _ => 1
  | .arsh64Reg _ _ => 1
  | .add32Imm _ _ => 1
  | .add32Reg _ _ => 1
  | .sub32Imm _ _ => 1
  | .sub32Reg _ _ => 1
  | .mul32Imm _ _ => 1
  | .mul32Reg _ _ => 1
  | .div32Imm _ _ => 1
  | .div32Reg _ _ => 1
  | .or32Imm _ _ => 1
  | .or32Reg _ _ => 1
  | .and32Imm _ _ => 1
  | .and32Reg _ _ => 1
  | .lsh32Imm _ _ => 1
  | .lsh32Reg _ _ => 1
  | .rsh32Imm _ _ => 1
  | .rsh32Reg _ _ => 1
  | .neg32 _ => 1
  | .mod32Imm _ _ => 1
  | .mod32Reg _ _ => 1
  | .xor32Imm _ _ => 1
  | .xor32Reg _ _ => 1
  | .mov32Imm _ _ => 1
  | .mov32Reg _ _ => 1
  | .arsh32Imm _ _ => 1
  | .arsh32Reg _ _ => 1
  | .le _ _ => 1
  | .be _ _ => 1
  | .ja _ => 1
  | .jeqImm _ _ _ => 1
  | .jeqReg _ _ _ => 1
  | .jgtImm _ _ _ => 1
  | .jgtReg _ _ _ => 1
  | .jgeImm _ _ _ => 1
  | .jgeReg _ _ _ => 1
  | .jsetImm _ _ _ => 1
  | .jsetReg _ _ _ => 1
  | .jneImm _ _ _ => 1
  | .jneReg _ _ _ => 1
  | .jsgtImm _ _ _ => 1
  | .jsgtReg _ _ _ => 1
  | .jsgeImm _ _ _ => 1
  | .jsgeReg _ _ _ => 1
  | .jltImm _ _ _ => 1
  | .jltReg _ _ _ => 1
  | .jleImm _ _ _ => 1
  | .jleReg _ _ _ => 1
  | .jsltImm _ _ _ => 1
  | .jsltReg _ _ _ => 1
  | .jsleImm _ _ _ => 1
  | .jsleReg _ _ _ => 1
  | .call _ => 1
  | .exit => 1
  | .ldabsw _ => 1
  | .ldabsh _ => 1
  | .ldabsb _ => 1
  | .ldabsdw _ => 1
  | .ldindw _ _ => 1
  | .ldindh _ _ => 1
  | .ldindb _ _ => 1
  | .ldinddw _ _ => 1
  | .ldxw _ _ _ => 1
  | .ldxh _ _ _ => 1
  | .ldxb _ _ _ => 1
  | .ldxdw _ _ _ => 1
  | .stw _ _ _ => 1
  | .sth _ _ _ => 1
  | .stb _ _ _ => 1
  | .stdw _ _ _ => 1
  | .stxw _ _ _ => 1
  | .stxh _ _ _ => 1
  | .stxb _ _ _ => 1
  | .stxdw _ _ _ => 1

end Sys2Proof
end

