-- ==== Sys2Proof/Machine/State.lean ====
section
/-! DEFINITION. The state of the core (spec/10_state.md R20, R29, R36, spec/44_call_exit.md R222) with the parameters of
the run it belongs to (spec/00_scope.md R7, R8), the causes a run can end with (spec/60_exceptions.md R270), and the
state after reset in the reference configuration (R36, R300, R314). Everything here is plain data. -/

namespace Sys2Proof.Machine

/-- The eleven general registers `r0` to `r10` (R21). There is no register 11 to 15 (R23). -/
inductive Reg where
  | r0 | r1 | r2 | r3 | r4 | r5 | r6 | r7 | r8 | r9 | r10
  deriving DecidableEq, Repr

/-- The register file: eleven 64-bit values, one bank, none hard-wired and none read-only (R21). -/
structure RegFile where
  r0 : Word
  r1 : Word
  r2 : Word
  r3 : Word
  r4 : Word
  r5 : Word
  r6 : Word
  r7 : Word
  r8 : Word
  r9 : Word
  r10 : Word
  deriving DecidableEq, Repr

/-- The two regions of the data space that hold storage (R31, R55). -/
inductive Region where
  /-- `AS`, the Address Space (R32). -/
  | addressSpace
  /-- `STK`, the Stack (R33). -/
  | stack
  deriving DecidableEq, Repr

/-- The listed bytes of one region, keyed by their offset in the region (`AS[k]`, `STK[k]`), in the canonical form that
`Memory.wf` of Machine/Memory.lean states. -/
abbrev Memory := List Host.Cell

/-- The eight causes of a fault, with the payloads of R270. Each is raised by a step of the core (or, the first, by
reset), ends the run for good and leaves every other component as the step found it (R272, R276). A cause is part of
the state (`status`), because the spec says what state a fault leaves. -/
inductive Cause where
  /-- Code 1. The program length is no multiple of 8, found at reset (R111); or `lddw` stands in the last slot (R121). -/
  | truncatedProgram
  /-- Code 2. A byte swap whose width `N = signed_32(imm)` is not 16, 32 or 64 (R260). -/
  | invalidSwapWidth (width : Int)
  /-- Code 3. A used register field holds 11 to 15 (R115). -/
  | invalidRegister (field : RegField)
  /-- Code 4. The divisor of a divide or remainder is zero (R132, R161). -/
  | divideByZero
  /-- Code 5. The `width` bytes from `address` are not all inside one region the instruction may reach (R57). -/
  | memoryFault (address : Int) (width : Nat)
  /-- Code 6. The opcode byte is none of the 98 (R92, R114). -/
  | unknownOpcode (op : Byte)
  /-- Code 7. A step begins with `pc` outside the program (R112). -/
  | missingReturn
  /-- Code 8. A step begins with the budget used up (R122). -/
  | budgetExhausted
  deriving DecidableEq, Repr

/-- The control state (R28): running, or one of the two shapes of a terminal status (R119). -/
inductive Status where
  | running
  /-- The run ended with `exit`, and this is the value of `r0` it returned (R223). -/
  | returned (value : Word)
  /-- The run ended with a fault (R276). -/
  | fault (cause : Cause)
  deriving DecidableEq, Repr

/-- The output events of a run: the report of a `call` whose key is registered nowhere (R15, R222). -/
inductive Event where
  | helperMiss (key : ImmField)
  deriving DecidableEq, Repr

/-- The Helper Registry `HELPERS`: a finite partial map from 32-bit keys to helpers, as key and helper pairs with no key
twice (R8, R34). -/
abbrev Registry := List (ImmField × Helper)

/-- The whole state. The first seven fields change during a run: `pc` (R24, R25: a mathematical integer that counts
slots), the registers (R21), the Address Space (R32), the Stack (R33), the status (R28), the instruction counter (R29)
and the event list (R222, R300). The last three are the parameters of the run, which no step changes (R20, R303);
log entry 1 says why they stand here. -/
structure State where
  pc : Int
  regs : RegFile
  addressSpace : Memory
  stack : Memory
  status : Status
  icount : Nat
  events : List Event
  params : Params
  program : List Byte
  helpers : Registry
  deriving DecidableEq, Repr

/-- The host-level faults: none. Every fault the spec describes ends the run by setting `status` (R276), so it is a next
state here, and the fault list is closed (R270, R292): no step of this machine stops outside it. Safe: nothing can be
raised that the spec does not describe. Log entry 9. -/
inductive Fault where
  deriving DecidableEq, Repr

/-- The host-level refusals. -/
inductive Refusal where
  /-- Raised by an arm of `exec` whose instruction has no meaning yet, with the mnemonic of its row in
  spec/opcode_table.json. Safe: the machine stops. No arm of this model raises it. -/
  | notModelled (mnemonic : String)
  deriving DecidableEq, Repr

/-- The register file after reset (R36, R300): registers 0 to 9 are zeroed, then register 1 is set to `MEM_BASE` and
register 10 to `STACK_BASE + STACK_SIZE`. -/
def RegFile.reset (p : Params) : RegFile :=
  { r0 := 0, r1 := p.memBase, r2 := 0, r3 := 0, r4 := 0, r5 := 0, r6 := 0, r7 := 0, r8 := 0, r9 := 0,
    r10 := BitVec.ofNat 64 (p.stackBase.toNat + p.stackSize) }

/-- The state after reset in the reference configuration (R314), before the host has supplied a program, a helper or an
initial byte: the empty program, the empty registry and the all-zero Address Space, which R304 names as legal. The Stack
lists nothing, so each of its bytes is the free value `Config.stackInit` (R302). A run with a program starts from
`State.start` of Machine/Boundary.lean, which is the reset procedure of R300 for any parameters. -/
def State.reset : State :=
  { pc := 0
    regs := RegFile.reset Params.reference
    addressSpace := []
    stack := []
    status := .running
    icount := 0
    events := []
    params := Params.reference
    program := []
    helpers := [] }

end Sys2Proof.Machine
end

