-- ==== Sys2Proof/Machine/Operands.lean ====
section
/-! DEFINITION. How the fields of a slot become operands (spec/30_encoding.md R84 to R86), and the little-endian view of
a number as bytes (spec/20_memory.md R51). -/

namespace Sys2Proof.Machine

/-- The index of a register. -/
def Reg.index : Reg → Nat
  | .r0 => 0 | .r1 => 1 | .r2 => 2 | .r3 => 3 | .r4 => 4 | .r5 => 5
  | .r6 => 6 | .r7 => 7 | .r8 => 8 | .r9 => 9 | .r10 => 10

/-- The field value that names a register (R86). -/
def Reg.field (r : Reg) : RegField := BitVec.ofNat 4 r.index

/-- The register a field value names: `x[v]` for `v <= 10`, none for 11 to 15 (R23, R86). -/
def regOfField (f : RegField) : Option Reg :=
  match f.toNat with
  | 0 => some .r0
  | 1 => some .r1
  | 2 => some .r2
  | 3 => some .r3
  | 4 => some .r4
  | 5 => some .r5
  | 6 => some .r6
  | 7 => some .r7
  | 8 => some .r8
  | 9 => some .r9
  | 10 => some .r10
  | _ => none

/-- `sext_64(imm)`: the second operand of the immediate ALU forms and conditional jumps, and the value of `st*`
(R16, R84). -/
def sextImm (imm : ImmField) : Word := imm.signExtend 64

/-- `zext_64(imm)`: the offset of an absolute or register-plus-immediate load and a half of the `lddw` constant
(R16, R84). -/
def zextImm (imm : ImmField) : Word := imm.setWidth 64

/-- `signed_16(off)`: the slot offset of a jump and the byte offset of a register-plus-offset access (R85). -/
def signedOff (off : OffField) : Int := off.toInt

/-- `signed_32(imm)`: the width operand of a byte swap (R84, R260). -/
def signedImm (imm : ImmField) : Int := imm.toInt

/-- The number whose little-endian bytes these are: the sum of `B[i] * 2^(8i)` (R51, R58). -/
def natOfBytes : List Byte → Nat
  | [] => 0
  | b :: bs => b.toNat + 256 * natOfBytes bs

/-- The `n` little-endian bytes of `v mod 2^(8n)`: byte `i` is `(v div 2^(8i)) mod 256` (R51, R59). -/
def toBytes : Nat → Nat → List Byte
  | 0, _ => []
  | n + 1, v => BitVec.ofNat 8 v :: toBytes n (v / 256)

/-- `MEM_BASE + zext_64(imm)`, the address of an absolute load, as an unbounded integer (R61, R257). -/
def absAddress (memBase : Word) (imm : ImmField) : Int := (memBase.toNat : Int) + (zextImm imm).toNat

/-- `x[src] + zext_64(imm)`, the address of a register-plus-immediate load, as an unbounded integer (R61, R258). -/
def indAddress (base : Word) (imm : ImmField) : Int := (base.toNat : Int) + (zextImm imm).toNat

/-- `x[base] + signed_16(off)`, the address of a register-plus-offset access, as an unbounded integer (R61). -/
def offAddress (base : Word) (off : OffField) : Int := (base.toNat : Int) + signedOff off

end Sys2Proof.Machine
end

