-- ==== Sys2Proof/Machine/Arith.lean ====
section
/-! DEFINITION. The result functions of the ALU and of the byte swapper: what each operation computes from its 64-bit
operands (spec/41_alu64.md R131 to R133, spec/42_alu32.md R160, R161, spec/46_byteswap.md R263). No operation sets a
flag (R27). -/

namespace Sys2Proof.Machine

/-- `(a + b) mod 2^64` (R131, R134). -/
def addResult (a b : Word) : Word := a + b

/-- `(a - b) mod 2^64` (R131, R136). -/
def subResult (a b : Word) : Word := a - b

/-- The low 64 bits of the product (R131, R138). -/
def mulResult (a b : Word) : Word := a * b

/-- `(-a) mod 2^64` (R131, R150). -/
def negResult (a : Word) : Word := -a

/-- The unsigned quotient `a div b`, for `b` not zero (R132). -/
def divResult (a b : Word) : Word := a.udiv b

/-- The unsigned remainder `a mod b`, for `b` not zero (R132). -/
def modResult (a b : Word) : Word := a.umod b

/-- Bitwise or (R142). -/
def orResult (a b : Word) : Word := a ||| b

/-- Bitwise and (R144). -/
def andResult (a b : Word) : Word := a &&& b

/-- Bitwise exclusive or (R153). -/
def xorResult (a b : Word) : Word := a ^^^ b

/-- The second operand alone: a move does not read its destination (R130, R155). -/
def movResult (_ b : Word) : Word := b

/-- The amount of every shift, at both widths: the low six bits of the second operand (R133, R161). -/
def shiftAmount (b : Word) : Nat := b.toNat % 64

/-- Shift left, zeros from the right (R133, R146). -/
def lshResult (a b : Word) : Word := a <<< shiftAmount b

/-- Logical shift right, zeros from the left (R133, R148). -/
def rshResult (a b : Word) : Word := a >>> shiftAmount b

/-- Arithmetic shift right, copies of bit 63 from the left (R133, R157). -/
def arshResult (a b : Word) : Word := a.sshiftRight (shiftAmount b)

/-- The masking rule of the 32-bit ALU family: the whole 64-bit result and `0xFFFFFFFF` (R160). -/
def mask32 (wide : Word) : Word := wide &&& 0x00000000FFFFFFFF#64

/-- The 32-bit twin of an operation: the same operation on the same full 64-bit operands, its result masked (R160). -/
def masked (op : Word → Word → Word) (a b : Word) : Word := mask32 (op a b)

/-- The 32-bit twin of an operation with one operand (R160). -/
def masked1 (op : Word → Word) (a : Word) : Word := mask32 (op a)

/-- The result of `le<N>`: the low `N` bits, zero-extended; no byte moves on this little-endian machine (R261, R263). -/
def leResult (bits : Nat) (v : Word) : Word := BitVec.ofNat 64 (v.toNat % 2 ^ bits)

/-- The result of `be<N>`: the low `N / 8` bytes in reverse order, zero-extended (`bswap_N`; R16, R262, R263). -/
def beResult (bits : Nat) (v : Word) : Word := BitVec.ofNat 64 (natOfBytes (toBytes (bits / 8) v.toNat).reverse)

end Sys2Proof.Machine
end

