-- ==== Sys2Proof/Machine/Flags.lean ====
section
/-! DEFINITION. The core has no flags, condition codes or predicate registers (spec/10_state.md R27). What stands in
their place is here: the eleven conditions that a conditional jump tests on its two operands (spec/43_jump.md R192,
R193), all 64 bits of both taking part. -/

namespace Sys2Proof.Machine

/-- `jeq`: `a = b`. -/
def condEq (a b : Word) : Bool := a == b

/-- `jne`: `a != b`. -/
def condNe (a b : Word) : Bool := a != b

/-- `jgt`: `a > b`, unsigned. -/
def condGt (a b : Word) : Bool := decide (b.toNat < a.toNat)

/-- `jge`: `a >= b`, unsigned. -/
def condGe (a b : Word) : Bool := decide (b.toNat ≤ a.toNat)

/-- `jlt`: `a < b`, unsigned. -/
def condLt (a b : Word) : Bool := decide (a.toNat < b.toNat)

/-- `jle`: `a <= b`, unsigned. -/
def condLe (a b : Word) : Bool := decide (a.toNat ≤ b.toNat)

/-- `jsgt`: `signed_64(a) > signed_64(b)`. -/
def condSgt (a b : Word) : Bool := decide (b.toInt < a.toInt)

/-- `jsge`: `signed_64(a) >= signed_64(b)`. -/
def condSge (a b : Word) : Bool := decide (b.toInt ≤ a.toInt)

/-- `jslt`: `signed_64(a) < signed_64(b)`. -/
def condSlt (a b : Word) : Bool := decide (a.toInt < b.toInt)

/-- `jsle`: `signed_64(a) <= signed_64(b)`. -/
def condSle (a b : Word) : Bool := decide (a.toInt ≤ b.toInt)

/-- `jset`: `(a & b) != 0`. -/
def condSet (a b : Word) : Bool := (a &&& b) != 0#64

end Sys2Proof.Machine
end

