-- ==== Sys2Proof/Machine/Memory.lean ====
section
/-! DEFINITION. The bytes of a region as plain data: an ordered list of cells, what an unlisted byte reads as, and the
reads and writes of one byte and of a run of bytes (spec/20_memory.md R53, R58, R59). -/

namespace Sys2Proof.Machine

/-- The value that an unlisted byte of a region has for certain. An unlisted byte of the Address Space is zero: the
reference value of `MEM_INIT` (R8; log entry 5). An unlisted byte of the Stack has no value the model knows (R37). -/
def Region.unlisted : Region → Option Byte
  | .addressSpace => some 0x00#8
  | .stack => none

/-- What byte `k` of a region reads as when nothing has written it: the certain value, or the free `STACK_INIT[k]`. -/
def Region.unwritten (R : Region) (k : Nat) : Byte :=
  match R.unlisted with
  | some b => b
  | none => Config.stackInit k

/-- The number of bytes of a region (R32, R33). -/
def Region.size (p : Params) : Region → Nat
  | .addressSpace => p.memSize
  | .stack => p.stackSize

/-- The data address of byte 0 of a region (R32, R33, R55). -/
def Region.base (p : Params) : Region → Nat
  | .addressSpace => p.memBase.toNat
  | .stack => p.stackBase.toNat

/-- The byte listed at an offset, if one is. -/
def Memory.lookup : Memory → Nat → Option Byte
  | [], _ => none
  | c :: m, k => if c.1 = k then some c.2 else Memory.lookup m k

/-- List a byte at an offset, keeping the offsets strictly rising. -/
def Memory.insert : Memory → Nat → Byte → Memory
  | [], k, b => [(k, b)]
  | c :: m, k, b =>
    if k < c.1 then (k, b) :: c :: m
    else if k = c.1 then (k, b) :: m
    else c :: Memory.insert m k b

/-- Unlist an offset. -/
def Memory.erase : Memory → Nat → Memory
  | [], _ => []
  | c :: m, k => if c.1 = k then Memory.erase m k else c :: Memory.erase m k

/-- Write one byte: a byte equal to what the unlisted byte is for certain is unlisted, any other is listed. -/
def Memory.write (u : Option Byte) (m : Memory) (k : Nat) (b : Byte) : Memory :=
  if u = some b then Memory.erase m k else Memory.insert m k b

/-- The canonical form of a region's cells: offsets strictly rising, each inside the region, and no cell that says what
an unlisted byte says anyway. -/
abbrev Memory.wf (u : Option Byte) (size : Nat) (m : Memory) : Prop :=
  m.Pairwise (fun c d => c.1 < d.1) ∧ ∀ c ∈ m, c.1 < size ∧ u ≠ some c.2

/-- The cells of a region. -/
def State.cells (s : State) : Region → Memory
  | .addressSpace => s.addressSpace
  | .stack => s.stack

/-- Replace the cells of a region. -/
def State.setCells (s : State) (R : Region) (m : Memory) : State :=
  match R with
  | .addressSpace => { s with addressSpace := m }
  | .stack => { s with stack := m }

/-- Byte `k` of a region: `AS[k]` or `STK[k]`. -/
def State.byteAt (s : State) (R : Region) (k : Nat) : Byte :=
  match Memory.lookup (s.cells R) k with
  | some b => b
  | none => R.unwritten k

/-- Set byte `k` of a region. -/
def State.setByte (s : State) (R : Region) (k : Nat) (b : Byte) : State :=
  s.setCells R (Memory.write R.unlisted (s.cells R) k b)

/-- The `n` bytes of a region from offset `k` on, lowest offset first. -/
def State.bytesAt (s : State) (R : Region) (k : Nat) : Nat → List Byte
  | 0 => []
  | n + 1 => s.byteAt R k :: s.bytesAt R (k + 1) n

/-- Write a run of bytes of a region from offset `k` on, the head of the list at the lowest offset. -/
def State.setBytes (s : State) (R : Region) (k : Nat) : List Byte → State
  | [] => s
  | b :: bs => (s.setByte R k b).setBytes R (k + 1) bs

end Sys2Proof.Machine
end

