-- ==== Sys2Proof/Machine/Ops.lean ====
section
/-! DEFINITION. The operations the meanings are built from: register reads and writes (spec/10_state.md R21), moving
`pc` (R26), raising a fault, which is this machine's exception entry (spec/60_exceptions.md R276), ending the run by
`exit`, which is all the machine has for a return (R223, R224), the register index check (spec/40_execution_loop.md
R115), address translation and the data accesses (spec/20_memory.md R57 to R60), the helper port (spec/00_scope.md R13),
and one operation per instruction form over them. -/

namespace Sys2Proof.Machine

/-- The three outcomes of a step of this machine. -/
abbrev Result := Host.Outcome State Fault Refusal

/-- Read a register of the file. -/
def RegFile.get (f : RegFile) : Reg → Word
  | .r0 => f.r0 | .r1 => f.r1 | .r2 => f.r2 | .r3 => f.r3 | .r4 => f.r4 | .r5 => f.r5
  | .r6 => f.r6 | .r7 => f.r7 | .r8 => f.r8 | .r9 => f.r9 | .r10 => f.r10

/-- Write a register of the file; every register is writable, `r10` among them (R21, R22). -/
def RegFile.set (f : RegFile) (r : Reg) (v : Word) : RegFile :=
  match r with
  | .r0 => { f with r0 := v }
  | .r1 => { f with r1 := v }
  | .r2 => { f with r2 := v }
  | .r3 => { f with r3 := v }
  | .r4 => { f with r4 := v }
  | .r5 => { f with r5 := v }
  | .r6 => { f with r6 := v }
  | .r7 => { f with r7 := v }
  | .r8 => { f with r8 := v }
  | .r9 => { f with r9 := v }
  | .r10 => { f with r10 := v }

/-- `x[r]` (R17). -/
def State.reg (s : State) (r : Reg) : Word := s.regs.get r

/-- `x[r] <- v` (R17). -/
def State.setReg (s : State) (r : Reg) (v : Word) : State := { s with regs := s.regs.set r v }

/-- `pc <- pc + n` (R26). -/
def State.advance (s : State) (n : Int) : State := { s with pc := s.pc + n }

/-- `pc <- pc + 1 + signed_16(off)`: the target of a taken jump (R191). It may lie outside the program; the next step's
fetch guard finds out. -/
def State.jump (s : State) (off : OffField) : State := { s with pc := s.pc + 1 + signedOff off }

/-- `emit E`: append an output event (R17, R222). -/
def State.emit (s : State) (e : Event) : State := { s with events := s.events ++ [e] }

/-- FAULT ENTRY. `raise c` sets the status and changes nothing else: no register, no byte, not `pc`, not `icount`, no
event (R272, R276). `pc` stays at the faulting instruction (R275). -/
def State.raise (s : State) (c : Cause) : State := { s with status := .fault c }

/-- A step that raises ends in the state of `State.raise`. -/
def raise (c : Cause) (s : State) : Result := .next (s.raise c)

/-- RETURN. The run ends normally with the value of `r0`; `pc`, registers and memory stay (R119, R223). There is no
return from a fault (R278). -/
def State.finish (s : State) : State := { s with status := .returned (s.reg .r0) }

/-- The register index check of one used field, before anything else the instruction does (R115): a field of 11 to 15
raises `InvalidRegister` with that value. -/
def withReg (f : RegField) (s : State) (k : Reg → Result) : Result :=
  match regOfField f with
  | some r => k r
  | none => raise (.invalidRegister f) s

/-- The index check of an instruction that uses both fields: `dst` is tested before `src` (R115). -/
def withRegs (dst src : RegField) (s : State) (k : Reg → Reg → Result) : Result :=
  withReg dst s fun d => withReg src s fun r => k d r

/-! ### Data memory -/

/-- The regions that the absolute and register-plus-immediate loads reach (R55, R60). -/
def reachAS : List Region := [.addressSpace]

/-- The regions that the register-plus-offset loads and stores reach (R55, R58, R59). -/
def reachBoth : List Region := [.addressSpace, .stack]

/-- All `n` bytes from address `a` lie in region `R` (R57). -/
def Region.holds (p : Params) (R : Region) (a : Int) (n : Nat) : Bool :=
  decide ((R.base p : Int) ≤ a) && decide (a + n ≤ (R.base p : Int) + R.size p)

/-- `Translate(a, n, regions)`: the region and the offset of an access, or none where it faults (R57). The address is
an unbounded integer and is never reduced (R61); there is no alignment test (R54) and there are no permissions. -/
def translateAccess (p : Params) (reach : List Region) (a : Int) (n : Nat) : Option (Region × Nat) :=
  match reach with
  | [] => none
  | R :: rest => if R.holds p a n then some (R, (a - R.base p).toNat) else translateAccess p rest a n

/-- `MemRead(a, n)` and, with `reachAS`, `MemReadAS(a, n)`: the little-endian number of the `n` bytes (R51, R58, R60). -/
def memRead (s : State) (reach : List Region) (a : Int) (n : Nat) : Except Cause Nat :=
  match translateAccess s.params reach a n with
  | some (R, k) => .ok (natOfBytes (s.bytesAt R k n))
  | none => .error (.memoryFault a n)

/-- `MemWrite(a, n, v)`: the `n` low bytes of `v`, least significant at the lowest address (R51, R59). -/
def memWrite (s : State) (a : Int) (n : Nat) (v : Word) : Except Cause State :=
  match translateAccess s.params reachBoth a n with
  | some (R, k) => .ok (s.setBytes R k (toBytes n v.toNat))
  | none => .error (.memoryFault a n)

/-! ### The helper port -/

/-- The function a registered helper stands for: total, of the five argument words only (R71, R220). -/
def helperResult (h : Helper) (a b c d e : Word) : Word :=
  match h with
  | .native n => Config.nativeHelper n a b c d e
  | .sumArgs => BitVec.ofNat 64 (a.toNat + b.toNat + c.toNat + d.toNat + e.toNat)
  | .fifthArg => e

/-- The helper registered under a key, if any (R13, R34). -/
def findHelper : Registry → ImmField → Option Helper
  | [], _ => none
  | (k, h) :: rest, key => if k = key then some h else findHelper rest key

/-- `call`: on a hit `x[0]` becomes the result of the helper for `x[1]` to `x[5]`; on a miss the only effect is the
report; `pc` advances either way (R220 to R222). -/
def callHelper (key : ImmField) (s : State) : Result :=
  match findHelper s.helpers key with
  | some h =>
    .next ((s.setReg .r0 (helperResult h (s.reg .r1) (s.reg .r2) (s.reg .r3) (s.reg .r4) (s.reg .r5))).advance 1)
  | none => .next ((s.emit (.helperMiss key)).advance 1)

/-! ### One operation per form -/

/-- Form `ALU_I`: `x[dst] <- op(x[dst], sext_64(imm)); pc <- pc + 1` (R83, R130). -/
def aluImm (op : Word → Word → Word) (dst : RegField) (imm : ImmField) (s : State) : Result :=
  withReg dst s fun d => .next ((s.setReg d (op (s.reg d) (sextImm imm))).advance 1)

/-- Form `ALU_R`: `x[dst] <- op(x[dst], x[src]); pc <- pc + 1` (R83, R130). -/
def aluReg (op : Word → Word → Word) (dst src : RegField) (s : State) : Result :=
  withRegs dst src s fun d r => .next ((s.setReg d (op (s.reg d) (s.reg r))).advance 1)

/-- Form `ALU_U`: `x[dst] <- op(x[dst]); pc <- pc + 1` (R83, R130). -/
def aluUnary (op : Word → Word) (dst : RegField) (s : State) : Result :=
  withReg dst s fun d => .next ((s.setReg d (op (s.reg d))).advance 1)

/-- A divide or remainder by `b` into register `d`: all 64 bits of `b` zero raises `DivideByZero`, at both widths
(R132, R161). -/
def divideInto (op : Word → Word → Word) (d : Reg) (b : Word) (s : State) : Result :=
  if b = 0#64 then raise .divideByZero s else .next ((s.setReg d (op (s.reg d) b)).advance 1)

/-- Divide and remainder, form `ALU_I` (R132). -/
def divImm (op : Word → Word → Word) (dst : RegField) (imm : ImmField) (s : State) : Result :=
  withReg dst s fun d => divideInto op d (sextImm imm) s

/-- Divide and remainder, form `ALU_R` (R132). -/
def divReg (op : Word → Word → Word) (dst src : RegField) (s : State) : Result :=
  withRegs dst src s fun d r => divideInto op d (s.reg r) s

/-- Form `END`: the width is tested after the register (R260), then `x[dst] <- op(N, x[dst]); pc <- pc + 1`. -/
def byteSwap (op : Nat → Word → Word) (dst : RegField) (imm : ImmField) (s : State) : Result :=
  withReg dst s fun d =>
    if signedImm imm = 16 ∨ signedImm imm = 32 ∨ signedImm imm = 64 then
      .next ((s.setReg d (op (signedImm imm).toNat (s.reg d))).advance 1)
    else raise (.invalidSwapWidth (signedImm imm)) s

/-- The end of a conditional jump: taken or fallen through (R191). It never faults for its target. -/
def branch (taken : Bool) (off : OffField) (s : State) : Result :=
  if taken then .next (s.jump off) else .next (s.advance 1)

/-- Form `JMP_I`: the condition of `x[dst]` and `sext_64(imm)` (R192). -/
def jumpImm (cond : Word → Word → Bool) (dst : RegField) (imm : ImmField) (off : OffField) (s : State) : Result :=
  withReg dst s fun d => branch (cond (s.reg d) (sextImm imm)) off s

/-- Form `JMP_R`: the condition of `x[dst]` and `x[src]` (R192). -/
def jumpReg (cond : Word → Word → Bool) (dst src : RegField) (off : OffField) (s : State) : Result :=
  withRegs dst src s fun d r => branch (cond (s.reg d) (s.reg r)) off s

/-- The end of a load: the `n` bytes at `a`, zero-extended, into register `d` (R253, R254). -/
def loadInto (d : Reg) (reach : List Region) (a : Int) (n : Nat) (s : State) : Result :=
  match memRead s reach a n with
  | .ok v => .next ((s.setReg d (BitVec.ofNat 64 v)).advance 1)
  | .error c => raise c s

/-- The end of a store: the low `n` bytes of `v` at `a` (R253, R254). -/
def storeAt (a : Int) (n : Nat) (v : Word) (s : State) : Result :=
  match memWrite s a n v with
  | .ok t => .next (t.advance 1)
  | .error c => raise c s

/-- Form `LDABS`: from the Address Space at offset `zext_64(imm)` into `r0` (R257). -/
def loadAbs (n : Nat) (imm : ImmField) (s : State) : Result :=
  loadInto .r0 reachAS (absAddress s.params.memBase imm) n s

/-- Form `LDIND`: from the Address Space at address `x[src] + zext_64(imm)` into `r0` (R258). -/
def loadInd (n : Nat) (src : RegField) (imm : ImmField) (s : State) : Result :=
  withReg src s fun r => loadInto .r0 reachAS (indAddress (s.reg r) imm) n s

/-- Form `LDX`: from address `x[src] + signed_16(off)` into `x[dst]` (R230, R253). -/
def loadOff (n : Nat) (dst src : RegField) (off : OffField) (s : State) : Result :=
  withRegs dst src s fun d r => loadInto d reachBoth (offAddress (s.reg r) off) n s

/-- Form `ST`: the low bytes of `sext_64(imm)` at address `x[dst] + signed_16(off)` (R259). -/
def storeImm (n : Nat) (dst : RegField) (off : OffField) (imm : ImmField) (s : State) : Result :=
  withReg dst s fun d => storeAt (offAddress (s.reg d) off) n (sextImm imm) s

/-- Form `STX`: the low bytes of `x[src]` at address `x[dst] + signed_16(off)` (R230, R253). -/
def storeReg (n : Nat) (dst : RegField) (off : OffField) (src : RegField) (s : State) : Result :=
  withRegs dst src s fun d r => storeAt (offAddress (s.reg d) off) n (s.reg r) s

/-- `lddw`: both halves as unsigned patterns, `pc <- pc + 2` (R231). -/
def loadWide (dst : RegField) (imm imm2 : ImmField) (s : State) : Result :=
  withReg dst s fun d =>
    .next ((s.setReg d (BitVec.ofNat 64 ((zextImm imm).toNat + (zextImm imm2).toNat * 2 ^ 32))).advance 2)

end Sys2Proof.Machine
end

