-- ==== Sys2Proof/Machine/Alu32.lean ====
section
/-! DEFINITION. The meanings of the 25 instructions of spec/42_alu32.md (R164 to R188): each is its 64-bit twin with
the result masked to the low 32 bits (R160), operands and shift amounts untouched (R161, R162). -/

namespace Sys2Proof.Machine

/-- `add32 dst, imm` (R164). -/
def execAdd32Imm (dst : RegField) (imm : ImmField) (s : State) : Result :=
  aluImm (masked addResult) dst imm s

/-- `add32 dst, src` (R165). -/
def execAdd32Reg (dst src : RegField) (s : State) : Result :=
  aluReg (masked addResult) dst src s

/-- `sub32 dst, imm` (R166). -/
def execSub32Imm (dst : RegField) (imm : ImmField) (s : State) : Result :=
  aluImm (masked subResult) dst imm s

/-- `sub32 dst, src` (R167). -/
def execSub32Reg (dst src : RegField) (s : State) : Result :=
  aluReg (masked subResult) dst src s

/-- `mul32 dst, imm` (R168). -/
def execMul32Imm (dst : RegField) (imm : ImmField) (s : State) : Result :=
  aluImm (masked mulResult) dst imm s

/-- `mul32 dst, src` (R169). -/
def execMul32Reg (dst src : RegField) (s : State) : Result :=
  aluReg (masked mulResult) dst src s

/-- `div32 dst, imm` (R170). -/
def execDiv32Imm (dst : RegField) (imm : ImmField) (s : State) : Result :=
  divImm (masked divResult) dst imm s

/-- `div32 dst, src` (R171). -/
def execDiv32Reg (dst src : RegField) (s : State) : Result :=
  divReg (masked divResult) dst src s

/-- `or32 dst, imm` (R172). -/
def execOr32Imm (dst : RegField) (imm : ImmField) (s : State) : Result :=
  aluImm (masked orResult) dst imm s

/-- `or32 dst, src` (R173). -/
def execOr32Reg (dst src : RegField) (s : State) : Result :=
  aluReg (masked orResult) dst src s

/-- `and32 dst, imm` (R174). -/
def execAnd32Imm (dst : RegField) (imm : ImmField) (s : State) : Result :=
  aluImm (masked andResult) dst imm s

/-- `and32 dst, src` (R175). -/
def execAnd32Reg (dst src : RegField) (s : State) : Result :=
  aluReg (masked andResult) dst src s

/-- `lsh32 dst, imm` (R176). -/
def execLsh32Imm (dst : RegField) (imm : ImmField) (s : State) : Result :=
  aluImm (masked lshResult) dst imm s

/-- `lsh32 dst, src` (R177). -/
def execLsh32Reg (dst src : RegField) (s : State) : Result :=
  aluReg (masked lshResult) dst src s

/-- `rsh32 dst, imm` (R178). -/
def execRsh32Imm (dst : RegField) (imm : ImmField) (s : State) : Result :=
  aluImm (masked rshResult) dst imm s

/-- `rsh32 dst, src` (R179). -/
def execRsh32Reg (dst src : RegField) (s : State) : Result :=
  aluReg (masked rshResult) dst src s

/-- `neg32 dst` (R180). -/
def execNeg32 (dst : RegField) (s : State) : Result :=
  aluUnary (masked1 negResult) dst s

/-- `mod32 dst, imm` (R181). -/
def execMod32Imm (dst : RegField) (imm : ImmField) (s : State) : Result :=
  divImm (masked modResult) dst imm s

/-- `mod32 dst, src` (R182). -/
def execMod32Reg (dst src : RegField) (s : State) : Result :=
  divReg (masked modResult) dst src s

/-- `xor32 dst, imm` (R183). -/
def execXor32Imm (dst : RegField) (imm : ImmField) (s : State) : Result :=
  aluImm (masked xorResult) dst imm s

/-- `xor32 dst, src` (R184). -/
def execXor32Reg (dst src : RegField) (s : State) : Result :=
  aluReg (masked xorResult) dst src s

/-- `mov32 dst, imm` (R185). -/
def execMov32Imm (dst : RegField) (imm : ImmField) (s : State) : Result :=
  aluImm (masked movResult) dst imm s

/-- `mov32 dst, src` (R186). -/
def execMov32Reg (dst src : RegField) (s : State) : Result :=
  aluReg (masked movResult) dst src s

/-- `arsh32 dst, imm` (R187). -/
def execArsh32Imm (dst : RegField) (imm : ImmField) (s : State) : Result :=
  aluImm (masked arshResult) dst imm s

/-- `arsh32 dst, src` (R188). -/
def execArsh32Reg (dst src : RegField) (s : State) : Result :=
  aluReg (masked arshResult) dst src s

end Sys2Proof.Machine
end

