-- ==== Sys2Proof/Machine/Alu64.lean ====
section
/-! DEFINITION. The meanings of the 25 instructions of spec/41_alu64.md (R134 to R158). -/

namespace Sys2Proof.Machine

/-- `add64 dst, imm` (R134). -/
def execAdd64Imm (dst : RegField) (imm : ImmField) (s : State) : Result :=
  aluImm addResult dst imm s

/-- `add64 dst, src` (R135). -/
def execAdd64Reg (dst src : RegField) (s : State) : Result :=
  aluReg addResult dst src s

/-- `sub64 dst, imm` (R136). -/
def execSub64Imm (dst : RegField) (imm : ImmField) (s : State) : Result :=
  aluImm subResult dst imm s

/-- `sub64 dst, src` (R137). -/
def execSub64Reg (dst src : RegField) (s : State) : Result :=
  aluReg subResult dst src s

/-- `mul64 dst, imm` (R138). -/
def execMul64Imm (dst : RegField) (imm : ImmField) (s : State) : Result :=
  aluImm mulResult dst imm s

/-- `mul64 dst, src` (R139). -/
def execMul64Reg (dst src : RegField) (s : State) : Result :=
  aluReg mulResult dst src s

/-- `div64 dst, imm` (R140). -/
def execDiv64Imm (dst : RegField) (imm : ImmField) (s : State) : Result :=
  divImm divResult dst imm s

/-- `div64 dst, src` (R141). -/
def execDiv64Reg (dst src : RegField) (s : State) : Result :=
  divReg divResult dst src s

/-- `or64 dst, imm` (R142). -/
def execOr64Imm (dst : RegField) (imm : ImmField) (s : State) : Result :=
  aluImm orResult dst imm s

/-- `or64 dst, src` (R143). -/
def execOr64Reg (dst src : RegField) (s : State) : Result :=
  aluReg orResult dst src s

/-- `and64 dst, imm` (R144). -/
def execAnd64Imm (dst : RegField) (imm : ImmField) (s : State) : Result :=
  aluImm andResult dst imm s

/-- `and64 dst, src` (R145). -/
def execAnd64Reg (dst src : RegField) (s : State) : Result :=
  aluReg andResult dst src s

/-- `lsh64 dst, imm` (R146). -/
def execLsh64Imm (dst : RegField) (imm : ImmField) (s : State) : Result :=
  aluImm lshResult dst imm s

/-- `lsh64 dst, src` (R147). -/
def execLsh64Reg (dst src : RegField) (s : State) : Result :=
  aluReg lshResult dst src s

/-- `rsh64 dst, imm` (R148). -/
def execRsh64Imm (dst : RegField) (imm : ImmField) (s : State) : Result :=
  aluImm rshResult dst imm s

/-- `rsh64 dst, src` (R149). -/
def execRsh64Reg (dst src : RegField) (s : State) : Result :=
  aluReg rshResult dst src s

/-- `neg64 dst` (R150). -/
def execNeg64 (dst : RegField) (s : State) : Result :=
  aluUnary negResult dst s

/-- `mod64 dst, imm` (R151). -/
def execMod64Imm (dst : RegField) (imm : ImmField) (s : State) : Result :=
  divImm modResult dst imm s

/-- `mod64 dst, src` (R152). -/
def execMod64Reg (dst src : RegField) (s : State) : Result :=
  divReg modResult dst src s

/-- `xor64 dst, imm` (R153). -/
def execXor64Imm (dst : RegField) (imm : ImmField) (s : State) : Result :=
  aluImm xorResult dst imm s

/-- `xor64 dst, src` (R154). -/
def execXor64Reg (dst src : RegField) (s : State) : Result :=
  aluReg xorResult dst src s

/-- `mov64 dst, imm` (R155). -/
def execMov64Imm (dst : RegField) (imm : ImmField) (s : State) : Result :=
  aluImm movResult dst imm s

/-- `mov64 dst, src` (R156). -/
def execMov64Reg (dst src : RegField) (s : State) : Result :=
  aluReg movResult dst src s

/-- `arsh64 dst, imm` (R157). -/
def execArsh64Imm (dst : RegField) (imm : ImmField) (s : State) : Result :=
  aluImm arshResult dst imm s

/-- `arsh64 dst, src` (R158). -/
def execArsh64Reg (dst src : RegField) (s : State) : Result :=
  aluReg arshResult dst src s

end Sys2Proof.Machine
end

