-- ==== Sys2Proof/Machine/ByteSwap.lean ====
section
/-! DEFINITION. The meanings of the two byte swaps of spec/46_byteswap.md (R261, R262). -/

namespace Sys2Proof.Machine

/-- `le<imm> dst` (R261). -/
def execLe (dst : RegField) (imm : ImmField) (s : State) : Result :=
  byteSwap leResult dst imm s

/-- `be<imm> dst` (R262). -/
def execBe (dst : RegField) (imm : ImmField) (s : State) : Result :=
  byteSwap beResult dst imm s

end Sys2Proof.Machine
end

