-- ==== Sys2Proof/Machine/CallExit.lean ====
section
/-! DEFINITION. The meanings of `call` and `exit` of spec/44_call_exit.md (R221, R223). -/

namespace Sys2Proof.Machine

/-- `call imm` (R221). -/
def execCall (imm : ImmField) (s : State) : Result :=
  callHelper imm s

/-- `exit` (R223). -/
def execExit (s : State) : Result :=
  .next s.finish

end Sys2Proof.Machine
end

