-- ==== Sys2Proof/Machine/Jump.lean ====
section
/-! DEFINITION. The meanings of the 23 jumps of spec/43_jump.md (R194 to R216). -/

namespace Sys2Proof.Machine

/-- `ja off` (R194). -/
def execJa (off : OffField) (s : State) : Result :=
  .next (s.jump off)

/-- `jeq dst, imm, off` (R195). -/
def execJeqImm (dst : RegField) (imm : ImmField) (off : OffField) (s : State) : Result :=
  jumpImm condEq dst imm off s

/-- `jeq dst, src, off` (R196). -/
def execJeqReg (dst src : RegField) (off : OffField) (s : State) : Result :=
  jumpReg condEq dst src off s

/-- `jgt dst, imm, off` (R197). -/
def execJgtImm (dst : RegField) (imm : ImmField) (off : OffField) (s : State) : Result :=
  jumpImm condGt dst imm off s

/-- `jgt dst, src, off` (R198). -/
def execJgtReg (dst src : RegField) (off : OffField) (s : State) : Result :=
  jumpReg condGt dst src off s

/-- `jge dst, imm, off` (R199). -/
def execJgeImm (dst : RegField) (imm : ImmField) (off : OffField) (s : State) : Result :=
  jumpImm condGe dst imm off s

/-- `jge dst, src, off` (R200). -/
def execJgeReg (dst src : RegField) (off : OffField) (s : State) : Result :=
  jumpReg condGe dst src off s

/-- `jset dst, imm, off` (R201). -/
def execJsetImm (dst : RegField) (imm : ImmField) (off : OffField) (s : State) : Result :=
  jumpImm condSet dst imm off s

/-- `jset dst, src, off` (R202). -/
def execJsetReg (dst src : RegField) (off : OffField) (s : State) : Result :=
  jumpReg condSet dst src off s

/-- `jne dst, imm, off` (R203). -/
def execJneImm (dst : RegField) (imm : ImmField) (off : OffField) (s : State) : Result :=
  jumpImm condNe dst imm off s

/-- `jne dst, src, off` (R204). -/
def execJneReg (dst src : RegField) (off : OffField) (s : State) : Result :=
  jumpReg condNe dst src off s

/-- `jsgt dst, imm, off` (R205). -/
def execJsgtImm (dst : RegField) (imm : ImmField) (off : OffField) (s : State) : Result :=
  jumpImm condSgt dst imm off s

/-- `jsgt dst, src, off` (R206). -/
def execJsgtReg (dst src : RegField) (off : OffField) (s : State) : Result :=
  jumpReg condSgt dst src off s

/-- `jsge dst, imm, off` (R207). -/
def execJsgeImm (dst : RegField) (imm : ImmField) (off : OffField) (s : State) : Result :=
  jumpImm condSge dst imm off s

/-- `jsge dst, src, off` (R208). -/
def execJsgeReg (dst src : RegField) (off : OffField) (s : State) : Result :=
  jumpReg condSge dst src off s

/-- `jlt dst, imm, off` (R209). -/
def execJltImm (dst : RegField) (imm : ImmField) (off : OffField) (s : State) : Result :=
  jumpImm condLt dst imm off s

/-- `jlt dst, src, off` (R210). -/
def execJltReg (dst src : RegField) (off : OffField) (s : State) : Result :=
  jumpReg condLt dst src off s

/-- `jle dst, imm, off` (R211). -/
def execJleImm (dst : RegField) (imm : ImmField) (off : OffField) (s : State) : Result :=
  jumpImm condLe dst imm off s

/-- `jle dst, src, off` (R212). -/
def execJleReg (dst src : RegField) (off : OffField) (s : State) : Result :=
  jumpReg condLe dst src off s

/-- `jslt dst, imm, off` (R213). -/
def execJsltImm (dst : RegField) (imm : ImmField) (off : OffField) (s : State) : Result :=
  jumpImm condSlt dst imm off s

/-- `jslt dst, src, off` (R214). -/
def execJsltReg (dst src : RegField) (off : OffField) (s : State) : Result :=
  jumpReg condSlt dst src off s

/-- `jsle dst, imm, off` (R215). -/
def execJsleImm (dst : RegField) (imm : ImmField) (off : OffField) (s : State) : Result :=
  jumpImm condSle dst imm off s

/-- `jsle dst, src, off` (R216). -/
def execJsleReg (dst src : RegField) (off : OffField) (s : State) : Result :=
  jumpReg condSle dst src off s

end Sys2Proof.Machine
end

