-- ==== Sys2Proof/Machine/LoadStore.lean ====
section
/-! DEFINITION. The meanings of the 21 instructions of spec/45_load_store.md (R231 to R251). -/

namespace Sys2Proof.Machine

/-- `lddw dst, imm64` (R231). -/
def execLddw (dst : RegField) (imm imm2 : ImmField) (s : State) : Result :=
  loadWide dst imm imm2 s

/-- `ldabsw imm` (R232). -/
def execLdabsw (imm : ImmField) (s : State) : Result :=
  loadAbs 4 imm s

/-- `ldabsh imm` (R233). -/
def execLdabsh (imm : ImmField) (s : State) : Result :=
  loadAbs 2 imm s

/-- `ldabsb imm` (R234). -/
def execLdabsb (imm : ImmField) (s : State) : Result :=
  loadAbs 1 imm s

/-- `ldabsdw imm` (R235). -/
def execLdabsdw (imm : ImmField) (s : State) : Result :=
  loadAbs 8 imm s

/-- `ldindw src, imm` (R236). -/
def execLdindw (src : RegField) (imm : ImmField) (s : State) : Result :=
  loadInd 4 src imm s

/-- `ldindh src, imm` (R237). -/
def execLdindh (src : RegField) (imm : ImmField) (s : State) : Result :=
  loadInd 2 src imm s

/-- `ldindb src, imm` (R238). -/
def execLdindb (src : RegField) (imm : ImmField) (s : State) : Result :=
  loadInd 1 src imm s

/-- `ldinddw src, imm` (R239). -/
def execLdinddw (src : RegField) (imm : ImmField) (s : State) : Result :=
  loadInd 8 src imm s

/-- `ldxw dst, [src+off]` (R240). -/
def execLdxw (dst src : RegField) (off : OffField) (s : State) : Result :=
  loadOff 4 dst src off s

/-- `ldxh dst, [src+off]` (R241). -/
def execLdxh (dst src : RegField) (off : OffField) (s : State) : Result :=
  loadOff 2 dst src off s

/-- `ldxb dst, [src+off]` (R242). -/
def execLdxb (dst src : RegField) (off : OffField) (s : State) : Result :=
  loadOff 1 dst src off s

/-- `ldxdw dst, [src+off]` (R243). -/
def execLdxdw (dst src : RegField) (off : OffField) (s : State) : Result :=
  loadOff 8 dst src off s

/-- `stw [dst+off], imm` (R244). -/
def execStw (dst : RegField) (off : OffField) (imm : ImmField) (s : State) : Result :=
  storeImm 4 dst off imm s

/-- `sth [dst+off], imm` (R245). -/
def execSth (dst : RegField) (off : OffField) (imm : ImmField) (s : State) : Result :=
  storeImm 2 dst off imm s

/-- `stb [dst+off], imm` (R246). -/
def execStb (dst : RegField) (off : OffField) (imm : ImmField) (s : State) : Result :=
  storeImm 1 dst off imm s

/-- `stdw [dst+off], imm` (R247). -/
def execStdw (dst : RegField) (off : OffField) (imm : ImmField) (s : State) : Result :=
  storeImm 8 dst off imm s

/-- `stxw [dst+off], src` (R248). -/
def execStxw (dst : RegField) (off : OffField) (src : RegField) (s : State) : Result :=
  storeReg 4 dst off src s

/-- `stxh [dst+off], src` (R249). -/
def execStxh (dst : RegField) (off : OffField) (src : RegField) (s : State) : Result :=
  storeReg 2 dst off src s

/-- `stxb [dst+off], src` (R250). -/
def execStxb (dst : RegField) (off : OffField) (src : RegField) (s : State) : Result :=
  storeReg 1 dst off src s

/-- `stxdw [dst+off], src` (R251). -/
def execStxdw (dst : RegField) (off : OffField) (src : RegField) (s : State) : Result :=
  storeReg 8 dst off src s

end Sys2Proof.Machine
end

