-- ==== Sys2Proof/Machine/Dispatch.lean ====
section
/-! DEFINITION. The dispatch of spec/40_execution_loop.md R117: one arm per instruction, each one call of its meaning. -/

namespace Sys2Proof.Machine

def exec (i : Instr) (s : State) : Host.Outcome State Fault Refusal :=
  match i with
  | .add64Imm dst imm => Sys2Proof.Machine.execAdd64Imm dst imm s
  | .add64Reg dst src => Sys2Proof.Machine.execAdd64Reg dst src s
  | .sub64Imm dst imm => Sys2Proof.Machine.execSub64Imm dst imm s
  | .sub64Reg dst src => Sys2Proof.Machine.execSub64Reg dst src s
  | .mul64Imm dst imm => Sys2Proof.Machine.execMul64Imm dst imm s
  | .mul64Reg dst src => Sys2Proof.Machine.execMul64Reg dst src s
  | .div64Imm dst imm => Sys2Proof.Machine.execDiv64Imm dst imm s
  | .div64Reg dst src => Sys2Proof.Machine.execDiv64Reg dst src s
  | .or64Imm dst imm => Sys2Proof.Machine.execOr64Imm dst imm s
  | .or64Reg dst src => Sys2Proof.Machine.execOr64Reg dst src s
  | .and64Imm dst imm => Sys2Proof.Machine.execAnd64Imm dst imm s
  | .and64Reg dst src => Sys2Proof.Machine.execAnd64Reg dst src s
  | .lsh64Imm dst imm => Sys2Proof.Machine.execLsh64Imm dst imm s
  | .lsh64Reg dst src => Sys2Proof.Machine.execLsh64Reg dst src s
  | .rsh64Imm dst imm => Sys2Proof.Machine.execRsh64Imm dst imm s
  | .rsh64Reg dst src => Sys2Proof.Machine.execRsh64Reg dst src s
  | .neg64 dst => Sys2Proof.Machine.execNeg64 dst s
  | .mod64Imm dst imm => Sys2Proof.Machine.execMod64Imm dst imm s
  | .mod64Reg dst src => Sys2Proof.Machine.execMod64Reg dst src s
  | .xor64Imm dst imm => Sys2Proof.Machine.execXor64Imm dst imm s
  | .xor64Reg dst src => Sys2Proof.Machine.execXor64Reg dst src s
  | .mov64Imm dst imm => Sys2Proof.Machine.execMov64Imm dst imm s
  | .mov64Reg dst src => Sys2Proof.Machine.execMov64Reg dst src s
  | .arsh64Imm dst imm => Sys2Proof.Machine.execArsh64Imm dst imm s
  | .arsh64Reg dst src => Sys2Proof.Machine.execArsh64Reg dst src s
  | .add32Imm dst imm => Sys2Proof.Machine.execAdd32Imm dst imm s
  | .add32Reg dst src => Sys2Proof.Machine.execAdd32Reg dst src s
  | .sub32Imm dst imm => Sys2Proof.Machine.execSub32Imm dst imm s
  | .sub32Reg dst src => Sys2Proof.Machine.execSub32Reg dst src s
  | .mul32Imm dst imm => Sys2Proof.Machine.execMul32Imm dst imm s
  | .mul32Reg dst src => Sys2Proof.Machine.execMul32Reg dst src s
  | .div32Imm dst imm => Sys2Proof.Machine.execDiv32Imm dst imm s
  | .div32Reg dst src => Sys2Proof.Machine.execDiv32Reg dst src s
  | .or32Imm dst imm => Sys2Proof.Machine.execOr32Imm dst imm s
  | .or32Reg dst src => Sys2Proof.Machine.execOr32Reg dst src s
  | .and32Imm dst imm => Sys2Proof.Machine.execAnd32Imm dst imm s
  | .and32Reg dst src => Sys2Proof.Machine.execAnd32Reg dst src s
  | .lsh32Imm dst imm => Sys2Proof.Machine.execLsh32Imm dst imm s
  | .lsh32Reg dst src => Sys2Proof.Machine.execLsh32Reg dst src s
  | .rsh32Imm dst imm => Sys2Proof.Machine.execRsh32Imm dst imm s
  | .rsh32Reg dst src => Sys2Proof.Machine.execRsh32Reg dst src s
  | .neg32 dst => Sys2Proof.Machine.execNeg32 dst s
  | .mod32Imm dst imm => Sys2Proof.Machine.execMod32Imm dst imm s
  | .mod32Reg dst src => Sys2Proof.Machine.execMod32Reg dst src s
  | .xor32Imm dst imm => Sys2Proof.Machine.execXor32Imm dst imm s
  | .xor32Reg dst src => Sys2Proof.Machine.execXor32Reg dst src s
  | .mov32Imm dst imm => Sys2Proof.Machine.execMov32Imm dst imm s
  | .mov32Reg dst src => Sys2Proof.Machine.execMov32Reg dst src s
  | .arsh32Imm dst imm => Sys2Proof.Machine.execArsh32Imm dst imm s
  | .arsh32Reg dst src => Sys2Proof.Machine.execArsh32Reg dst src s
  | .le dst imm => Sys2Proof.Machine.execLe dst imm s
  | .be dst imm => Sys2Proof.Machine.execBe dst imm s
  | .ja off => Sys2Proof.Machine.execJa off s
  | .jeqImm dst imm off => Sys2Proof.Machine.execJeqImm dst imm off s
  | .jeqReg dst src off => Sys2Proof.Machine.execJeqReg dst src off s
  | .jgtImm dst imm off => Sys2Proof.Machine.execJgtImm dst imm off s
  | .jgtReg dst src off => Sys2Proof.Machine.execJgtReg dst src off s
  | .jgeImm dst imm off => Sys2Proof.Machine.execJgeImm dst imm off s
  | .jgeReg dst src off => Sys2Proof.Machine.execJgeReg dst src off s
  | .jsetImm dst imm off => Sys2Proof.Machine.execJsetImm dst imm off s
  | .jsetReg dst src off => Sys2Proof.Machine.execJsetReg dst src off s
  | .jneImm dst imm off => Sys2Proof.Machine.execJneImm dst imm off s
  | .jneReg dst src off => Sys2Proof.Machine.execJneReg dst src off s
  | .jsgtImm dst imm off => Sys2Proof.Machine.execJsgtImm dst imm off s
  | .jsgtReg dst src off => Sys2Proof.Machine.execJsgtReg dst src off s
  | .jsgeImm dst imm off => Sys2Proof.Machine.execJsgeImm dst imm off s
  | .jsgeReg dst src off => Sys2Proof.Machine.execJsgeReg dst src off s
  | .jltImm dst imm off => Sys2Proof.Machine.execJltImm dst imm off s
  | .jltReg dst src off => Sys2Proof.Machine.execJltReg dst src off s
  | .jleImm dst imm off => Sys2Proof.Machine.execJleImm dst imm off s
  | .jleReg dst src off => Sys2Proof.Machine.execJleReg dst src off s
  | .jsltImm dst imm off => Sys2Proof.Machine.execJsltImm dst imm off s
  | .jsltReg dst src off => Sys2Proof.Machine.execJsltReg dst src off s
  | .jsleImm dst imm off => Sys2Proof.Machine.execJsleImm dst imm off s
  | .jsleReg dst src off => Sys2Proof.Machine.execJsleReg dst src off s
  | .call imm => Sys2Proof.Machine.execCall imm s
  | .exit => Sys2Proof.Machine.execExit s
  | .lddw dst imm imm2 => Sys2Proof.Machine.execLddw dst imm imm2 s
  | .ldabsw imm => Sys2Proof.Machine.execLdabsw imm s
  | .ldabsh imm => Sys2Proof.Machine.execLdabsh imm s
  | .ldabsb imm => Sys2Proof.Machine.execLdabsb imm s
  | .ldabsdw imm => Sys2Proof.Machine.execLdabsdw imm s
  | .ldindw src imm => Sys2Proof.Machine.execLdindw src imm s
  | .ldindh src imm => Sys2Proof.Machine.execLdindh src imm s
  | .ldindb src imm => Sys2Proof.Machine.execLdindb src imm s
  | .ldinddw src imm => Sys2Proof.Machine.execLdinddw src imm s
  | .ldxw dst src off => Sys2Proof.Machine.execLdxw dst src off s
  | .ldxh dst src off => Sys2Proof.Machine.execLdxh dst src off s
  | .ldxb dst src off => Sys2Proof.Machine.execLdxb dst src off s
  | .ldxdw dst src off => Sys2Proof.Machine.execLdxdw dst src off s
  | .stw dst off imm => Sys2Proof.Machine.execStw dst off imm s
  | .sth dst off imm => Sys2Proof.Machine.execSth dst off imm s
  | .stb dst off imm => Sys2Proof.Machine.execStb dst off imm s
  | .stdw dst off imm => Sys2Proof.Machine.execStdw dst off imm s
  | .stxw dst off src => Sys2Proof.Machine.execStxw dst off src s
  | .stxh dst off src => Sys2Proof.Machine.execStxh dst off src s
  | .stxb dst off src => Sys2Proof.Machine.execStxb dst off src s
  | .stxdw dst off src => Sys2Proof.Machine.execStxdw dst off src s

end Sys2Proof.Machine
end

