-- ==== Sys2Proof/Decode.lean ====
section
/-! DEFINITION. The decoder and the encoder of spec/30_encoding.md. The decoder takes the program bytes from a slot on
and gives the instruction with the bytes behind it; it is total on any bytes and refuses by name: an opcode byte outside
the tables of R88 to R91, a list with no whole slot, an `lddw` with no second slot. The encoder writes zero into every
ignored field (R95). -/

namespace Sys2Proof

/-- The five fields of one slot (R81, R82). -/
structure Slot where
  opcode : Byte
  dst : RegField
  src : RegField
  off : OffField
  imm : ImmField
  deriving DecidableEq, Repr

/-- Why bytes are no instruction. -/
inductive DecodeError where
  /-- The opcode byte is none of the 98 (R92, R114). -/
  | unknownOpcode (op : Byte)
  /-- Fewer than eight bytes are left: there is no slot (R80, R112). -/
  | noSlot
  /-- The opcode byte is that of `lddw` and the second slot is missing (R94, R121). -/
  | noSecondSlot
  deriving DecidableEq, Repr

/-- The fields of a slot from its eight bytes, by the byte table of R81: `dst` is the low half of byte 1 and `src` the
high half, and `off` and `imm` are little-endian (R50). -/
def Slot.ofBytes (b0 b1 b2 b3 b4 b5 b6 b7 : Byte) : Slot :=
  { opcode := b0
    dst := b1.extractLsb' 0 4
    src := b1.extractLsb' 4 4
    off := b3 ++ b2
    imm := b7 ++ b6 ++ b5 ++ b4 }

/-- The first slot of a byte list and the bytes behind it. -/
def takeSlot : List Byte → Option (Slot × List Byte)
  | b0 :: b1 :: b2 :: b3 :: b4 :: b5 :: b6 :: b7 :: rest => some (Slot.ofBytes b0 b1 b2 b3 b4 b5 b6 b7, rest)
  | _ => none

/-- The 64-bit ALU opcodes (the table of R88). -/
def decodeAlu64 (f : Slot) : Option Instr :=
  match f.opcode.toNat with
  | 0x07 => some (.add64Imm f.dst f.imm)
  | 0x0f => some (.add64Reg f.dst f.src)
  | 0x17 => some (.sub64Imm f.dst f.imm)
  | 0x1f => some (.sub64Reg f.dst f.src)
  | 0x27 => some (.mul64Imm f.dst f.imm)
  | 0x2f => some (.mul64Reg f.dst f.src)
  | 0x37 => some (.div64Imm f.dst f.imm)
  | 0x3f => some (.div64Reg f.dst f.src)
  | 0x47 => some (.or64Imm f.dst f.imm)
  | 0x4f => some (.or64Reg f.dst f.src)
  | 0x57 => some (.and64Imm f.dst f.imm)
  | 0x5f => some (.and64Reg f.dst f.src)
  | 0x67 => some (.lsh64Imm f.dst f.imm)
  | 0x6f => some (.lsh64Reg f.dst f.src)
  | 0x77 => some (.rsh64Imm f.dst f.imm)
  | 0x7f => some (.rsh64Reg f.dst f.src)
  | 0x87 => some (.neg64 f.dst)
  | 0x97 => some (.mod64Imm f.dst f.imm)
  | 0x9f => some (.mod64Reg f.dst f.src)
  | 0xa7 => some (.xor64Imm f.dst f.imm)
  | 0xaf => some (.xor64Reg f.dst f.src)
  | 0xb7 => some (.mov64Imm f.dst f.imm)
  | 0xbf => some (.mov64Reg f.dst f.src)
  | 0xc7 => some (.arsh64Imm f.dst f.imm)
  | 0xcf => some (.arsh64Reg f.dst f.src)
  | _ => none

/-- The 32-bit ALU and byte-swap opcodes (the table of R89). -/
def decodeAlu32 (f : Slot) : Option Instr :=
  match f.opcode.toNat with
  | 0x04 => some (.add32Imm f.dst f.imm)
  | 0x0c => some (.add32Reg f.dst f.src)
  | 0x14 => some (.sub32Imm f.dst f.imm)
  | 0x1c => some (.sub32Reg f.dst f.src)
  | 0x24 => some (.mul32Imm f.dst f.imm)
  | 0x2c => some (.mul32Reg f.dst f.src)
  | 0x34 => some (.div32Imm f.dst f.imm)
  | 0x3c => some (.div32Reg f.dst f.src)
  | 0x44 => some (.or32Imm f.dst f.imm)
  | 0x4c => some (.or32Reg f.dst f.src)
  | 0x54 => some (.and32Imm f.dst f.imm)
  | 0x5c => some (.and32Reg f.dst f.src)
  | 0x64 => some (.lsh32Imm f.dst f.imm)
  | 0x6c => some (.lsh32Reg f.dst f.src)
  | 0x74 => some (.rsh32Imm f.dst f.imm)
  | 0x7c => some (.rsh32Reg f.dst f.src)
  | 0x84 => some (.neg32 f.dst)
  | 0x94 => some (.mod32Imm f.dst f.imm)
  | 0x9c => some (.mod32Reg f.dst f.src)
  | 0xa4 => some (.xor32Imm f.dst f.imm)
  | 0xac => some (.xor32Reg f.dst f.src)
  | 0xb4 => some (.mov32Imm f.dst f.imm)
  | 0xbc => some (.mov32Reg f.dst f.src)
  | 0xc4 => some (.arsh32Imm f.dst f.imm)
  | 0xcc => some (.arsh32Reg f.dst f.src)
  | 0xd4 => some (.le f.dst f.imm)
  | 0xdc => some (.be f.dst f.imm)
  | _ => none

/-- The jump-class opcodes, helper call and return among them (the table of R90). -/
def decodeJump (f : Slot) : Option Instr :=
  match f.opcode.toNat with
  | 0x05 => some (.ja f.off)
  | 0x15 => some (.jeqImm f.dst f.imm f.off)
  | 0x1d => some (.jeqReg f.dst f.src f.off)
  | 0x25 => some (.jgtImm f.dst f.imm f.off)
  | 0x2d => some (.jgtReg f.dst f.src f.off)
  | 0x35 => some (.jgeImm f.dst f.imm f.off)
  | 0x3d => some (.jgeReg f.dst f.src f.off)
  | 0x45 => some (.jsetImm f.dst f.imm f.off)
  | 0x4d => some (.jsetReg f.dst f.src f.off)
  | 0x55 => some (.jneImm f.dst f.imm f.off)
  | 0x5d => some (.jneReg f.dst f.src f.off)
  | 0x65 => some (.jsgtImm f.dst f.imm f.off)
  | 0x6d => some (.jsgtReg f.dst f.src f.off)
  | 0x75 => some (.jsgeImm f.dst f.imm f.off)
  | 0x7d => some (.jsgeReg f.dst f.src f.off)
  | 0x85 => some (.call f.imm)
  | 0x95 => some (.exit)
  | 0xa5 => some (.jltImm f.dst f.imm f.off)
  | 0xad => some (.jltReg f.dst f.src f.off)
  | 0xb5 => some (.jleImm f.dst f.imm f.off)
  | 0xbd => some (.jleReg f.dst f.src f.off)
  | 0xc5 => some (.jsltImm f.dst f.imm f.off)
  | 0xcd => some (.jsltReg f.dst f.src f.off)
  | 0xd5 => some (.jsleImm f.dst f.imm f.off)
  | 0xdd => some (.jsleReg f.dst f.src f.off)
  | _ => none

/-- The one-slot load and store opcodes (the table of R91 but for `lddw`). -/
def decodeLoadStore (f : Slot) : Option Instr :=
  match f.opcode.toNat with
  | 0x20 => some (.ldabsw f.imm)
  | 0x28 => some (.ldabsh f.imm)
  | 0x30 => some (.ldabsb f.imm)
  | 0x38 => some (.ldabsdw f.imm)
  | 0x40 => some (.ldindw f.src f.imm)
  | 0x48 => some (.ldindh f.src f.imm)
  | 0x50 => some (.ldindb f.src f.imm)
  | 0x58 => some (.ldinddw f.src f.imm)
  | 0x61 => some (.ldxw f.dst f.src f.off)
  | 0x62 => some (.stw f.dst f.off f.imm)
  | 0x63 => some (.stxw f.dst f.off f.src)
  | 0x69 => some (.ldxh f.dst f.src f.off)
  | 0x6a => some (.sth f.dst f.off f.imm)
  | 0x6b => some (.stxh f.dst f.off f.src)
  | 0x71 => some (.ldxb f.dst f.src f.off)
  | 0x72 => some (.stb f.dst f.off f.imm)
  | 0x73 => some (.stxb f.dst f.off f.src)
  | 0x79 => some (.ldxdw f.dst f.src f.off)
  | 0x7a => some (.stdw f.dst f.off f.imm)
  | 0x7b => some (.stxdw f.dst f.off f.src)
  | _ => none

/-- The opcode byte of `lddw`, the one two-slot instruction (R94). -/
def lddwOpcode : Byte := 0x18#8

/-- The one-slot instruction of a slot: the opcode byte alone selects it (R83), and a byte outside the four tables
selects none (R92). -/
def decodeSlot (f : Slot) : Option Instr :=
  (decodeAlu64 f).orElse fun _ => (decodeAlu32 f).orElse fun _ => (decodeJump f).orElse fun _ => decodeLoadStore f

/-- Decode the instruction at the head of a byte list (R82, R94): the opcode byte of the first slot tells the length,
and the second slot of an `lddw` gives its `imm` field only. -/
def decode (bytes : List Byte) : Except DecodeError (Instr × List Byte) :=
  match takeSlot bytes with
  | none => .error .noSlot
  | some (f, rest) =>
    if f.opcode = lddwOpcode then
      match takeSlot rest with
      | none => .error .noSecondSlot
      | some (g, rest') => .ok (.lddw f.dst f.imm g.imm, rest')
    else
      match decodeSlot f with
      | none => .error (.unknownOpcode f.opcode)
      | some i => .ok (i, rest)

/-- The eight bytes of a slot in the order of R81. -/
def Slot.bytes (f : Slot) : List Byte :=
  [f.opcode, f.src ++ f.dst,
   f.off.extractLsb' 0 8, f.off.extractLsb' 8 8,
   f.imm.extractLsb' 0 8, f.imm.extractLsb' 8 8, f.imm.extractLsb' 16 8, f.imm.extractLsb' 24 8]

/-- A slot whose fields are zero but for the opcode: what an assembler starts from (R95). -/
def Slot.blank (op : Byte) : Slot := { opcode := op, dst := 0, src := 0, off := 0, imm := 0 }

/-- The bytes of an instruction: the opcode of its row, the fields its form uses, zero in every field it ignores
(R81, R83, R95), and for `lddw` a second slot that is zero but for its `imm` (R94). -/
def encode : Instr → List Byte
  | .add64Imm dst imm => Slot.bytes { Slot.blank 0x07#8 with dst := dst, imm := imm }
  | .add64Reg dst src => Slot.bytes { Slot.blank 0x0f#8 with dst := dst, src := src }
  | .sub64Imm dst imm => Slot.bytes { Slot.blank 0x17#8 with dst := dst, imm := imm }
  | .sub64Reg dst src => Slot.bytes { Slot.blank 0x1f#8 with dst := dst, src := src }
  | .mul64Imm dst imm => Slot.bytes { Slot.blank 0x27#8 with dst := dst, imm := imm }
  | .mul64Reg dst src => Slot.bytes { Slot.blank 0x2f#8 with dst := dst, src := src }
  | .div64Imm dst imm => Slot.bytes { Slot.blank 0x37#8 with dst := dst, imm := imm }
  | .div64Reg dst src => Slot.bytes { Slot.blank 0x3f#8 with dst := dst, src := src }
  | .or64Imm dst imm => Slot.bytes { Slot.blank 0x47#8 with dst := dst, imm := imm }
  | .or64Reg dst src => Slot.bytes { Slot.blank 0x4f#8 with dst := dst, src := src }
  | .and64Imm dst imm => Slot.bytes { Slot.blank 0x57#8 with dst := dst, imm := imm }
  | .and64Reg dst src => Slot.bytes { Slot.blank 0x5f#8 with dst := dst, src := src }
  | .lsh64Imm dst imm => Slot.bytes { Slot.blank 0x67#8 with dst := dst, imm := imm }
  | .lsh64Reg dst src => Slot.bytes { Slot.blank 0x6f#8 with dst := dst, src := src }
  | .rsh64Imm dst imm => Slot.bytes { Slot.blank 0x77#8 with dst := dst, imm := imm }
  | .rsh64Reg dst src => Slot.bytes { Slot.blank 0x7f#8 with dst := dst, src := src }
  | .neg64 dst => Slot.bytes { Slot.blank 0x87#8 with dst := dst }
  | .mod64Imm dst imm => Slot.bytes { Slot.blank 0x97#8 with dst := dst, imm := imm }
  | .mod64Reg dst src => Slot.bytes { Slot.blank 0x9f#8 with dst := dst, src := src }
  | .xor64Imm dst imm => Slot.bytes { Slot.blank 0xa7#8 with dst := dst, imm := imm }
  | .xor64Reg dst src => Slot.bytes { Slot.blank 0xaf#8 with dst := dst, src := src }
  | .mov64Imm dst imm => Slot.bytes { Slot.blank 0xb7#8 with dst := dst, imm := imm }
  | .mov64Reg dst src => Slot.bytes { Slot.blank 0xbf#8 with dst := dst, src := src }
  | .arsh64Imm dst imm => Slot.bytes { Slot.blank 0xc7#8 with dst := dst, imm := imm }
  | .arsh64Reg dst src => Slot.bytes { Slot.blank 0xcf#8 with dst := dst, src := src }
  | .add32Imm dst imm => Slot.bytes { Slot.blank 0x04#8 with dst := dst, imm := imm }
  | .add32Reg dst src => Slot.bytes { Slot.blank 0x0c#8 with dst := dst, src := src }
  | .sub32Imm dst imm => Slot.bytes { Slot.blank 0x14#8 with dst := dst, imm := imm }
  | .sub32Reg dst src => Slot.bytes { Slot.blank 0x1c#8 with dst := dst, src := src }
  | .mul32Imm dst imm => Slot.bytes { Slot.blank 0x24#8 with dst := dst, imm := imm }
  | .mul32Reg dst src => Slot.bytes { Slot.blank 0x2c#8 with dst := dst, src := src }
  | .div32Imm dst imm => Slot.bytes { Slot.blank 0x34#8 with dst := dst, imm := imm }
  | .div32Reg dst src => Slot.bytes { Slot.blank 0x3c#8 with dst := dst, src := src }
  | .or32Imm dst imm => Slot.bytes { Slot.blank 0x44#8 with dst := dst, imm := imm }
  | .or32Reg dst src => Slot.bytes { Slot.blank 0x4c#8 with dst := dst, src := src }
  | .and32Imm dst imm => Slot.bytes { Slot.blank 0x54#8 with dst := dst, imm := imm }
  | .and32Reg dst src => Slot.bytes { Slot.blank 0x5c#8 with dst := dst, src := src }
  | .lsh32Imm dst imm => Slot.bytes { Slot.blank 0x64#8 with dst := dst, imm := imm }
  | .lsh32Reg dst src => Slot.bytes { Slot.blank 0x6c#8 with dst := dst, src := src }
  | .rsh32Imm dst imm => Slot.bytes { Slot.blank 0x74#8 with dst := dst, imm := imm }
  | .rsh32Reg dst src => Slot.bytes { Slot.blank 0x7c#8 with dst := dst, src := src }
  | .neg32 dst => Slot.bytes { Slot.blank 0x84#8 with dst := dst }
  | .mod32Imm dst imm => Slot.bytes { Slot.blank 0x94#8 with dst := dst, imm := imm }
  | .mod32Reg dst src => Slot.bytes { Slot.blank 0x9c#8 with dst := dst, src := src }
  | .xor32Imm dst imm => Slot.bytes { Slot.blank 0xa4#8 with dst := dst, imm := imm }
  | .xor32Reg dst src => Slot.bytes { Slot.blank 0xac#8 with dst := dst, src := src }
  | .mov32Imm dst imm => Slot.bytes { Slot.blank 0xb4#8 with dst := dst, imm := imm }
  | .mov32Reg dst src => Slot.bytes { Slot.blank 0xbc#8 with dst := dst, src := src }
  | .arsh32Imm dst imm => Slot.bytes { Slot.blank 0xc4#8 with dst := dst, imm := imm }
  | .arsh32Reg dst src => Slot.bytes { Slot.blank 0xcc#8 with dst := dst, src := src }
  | .le dst imm => Slot.bytes { Slot.blank 0xd4#8 with dst := dst, imm := imm }
  | .be dst imm => Slot.bytes { Slot.blank 0xdc#8 with dst := dst, imm := imm }
  | .ja off => Slot.bytes { Slot.blank 0x05#8 with off := off }
  | .jeqImm dst imm off => Slot.bytes { Slot.blank 0x15#8 with dst := dst, imm := imm, off := off }
  | .jeqReg dst src off => Slot.bytes { Slot.blank 0x1d#8 with dst := dst, src := src, off := off }
  | .jgtImm dst imm off => Slot.bytes { Slot.blank 0x25#8 with dst := dst, imm := imm, off := off }
  | .jgtReg dst src off => Slot.bytes { Slot.blank 0x2d#8 with dst := dst, src := src, off := off }
  | .jgeImm dst imm off => Slot.bytes { Slot.blank 0x35#8 with dst := dst, imm := imm, off := off }
  | .jgeReg dst src off => Slot.bytes { Slot.blank 0x3d#8 with dst := dst, src := src, off := off }
  | .jsetImm dst imm off => Slot.bytes { Slot.blank 0x45#8 with dst := dst, imm := imm, off := off }
  | .jsetReg dst src off => Slot.bytes { Slot.blank 0x4d#8 with dst := dst, src := src, off := off }
  | .jneImm dst imm off => Slot.bytes { Slot.blank 0x55#8 with dst := dst, imm := imm, off := off }
  | .jneReg dst src off => Slot.bytes { Slot.blank 0x5d#8 with dst := dst, src := src, off := off }
  | .jsgtImm dst imm off => Slot.bytes { Slot.blank 0x65#8 with dst := dst, imm := imm, off := off }
  | .jsgtReg dst src off => Slot.bytes { Slot.blank 0x6d#8 with dst := dst, src := src, off := off }
  | .jsgeImm dst imm off => Slot.bytes { Slot.blank 0x75#8 with dst := dst, imm := imm, off := off }
  | .jsgeReg dst src off => Slot.bytes { Slot.blank 0x7d#8 with dst := dst, src := src, off := off }
  | .jltImm dst imm off => Slot.bytes { Slot.blank 0xa5#8 with dst := dst, imm := imm, off := off }
  | .jltReg dst src off => Slot.bytes { Slot.blank 0xad#8 with dst := dst, src := src, off := off }
  | .jleImm dst imm off => Slot.bytes { Slot.blank 0xb5#8 with dst := dst, imm := imm, off := off }
  | .jleReg dst src off => Slot.bytes { Slot.blank 0xbd#8 with dst := dst, src := src, off := off }
  | .jsltImm dst imm off => Slot.bytes { Slot.blank 0xc5#8 with dst := dst, imm := imm, off := off }
  | .jsltReg dst src off => Slot.bytes { Slot.blank 0xcd#8 with dst := dst, src := src, off := off }
  | .jsleImm dst imm off => Slot.bytes { Slot.blank 0xd5#8 with dst := dst, imm := imm, off := off }
  | .jsleReg dst src off => Slot.bytes { Slot.blank 0xdd#8 with dst := dst, src := src, off := off }
  | .call imm => Slot.bytes { Slot.blank 0x85#8 with imm := imm }
  | .exit => Slot.bytes (Slot.blank 0x95#8)
  | .lddw dst imm imm2 =>
    Slot.bytes { Slot.blank lddwOpcode with dst := dst, imm := imm } ++ Slot.bytes { Slot.blank 0x00#8 with imm := imm2 }
  | .ldabsw imm => Slot.bytes { Slot.blank 0x20#8 with imm := imm }
  | .ldabsh imm => Slot.bytes { Slot.blank 0x28#8 with imm := imm }
  | .ldabsb imm => Slot.bytes { Slot.blank 0x30#8 with imm := imm }
  | .ldabsdw imm => Slot.bytes { Slot.blank 0x38#8 with imm := imm }
  | .ldindw src imm => Slot.bytes { Slot.blank 0x40#8 with src := src, imm := imm }
  | .ldindh src imm => Slot.bytes { Slot.blank 0x48#8 with src := src, imm := imm }
  | .ldindb src imm => Slot.bytes { Slot.blank 0x50#8 with src := src, imm := imm }
  | .ldinddw src imm => Slot.bytes { Slot.blank 0x58#8 with src := src, imm := imm }
  | .ldxw dst src off => Slot.bytes { Slot.blank 0x61#8 with dst := dst, src := src, off := off }
  | .ldxh dst src off => Slot.bytes { Slot.blank 0x69#8 with dst := dst, src := src, off := off }
  | .ldxb dst src off => Slot.bytes { Slot.blank 0x71#8 with dst := dst, src := src, off := off }
  | .ldxdw dst src off => Slot.bytes { Slot.blank 0x79#8 with dst := dst, src := src, off := off }
  | .stw dst off imm => Slot.bytes { Slot.blank 0x62#8 with dst := dst, off := off, imm := imm }
  | .sth dst off imm => Slot.bytes { Slot.blank 0x6a#8 with dst := dst, off := off, imm := imm }
  | .stb dst off imm => Slot.bytes { Slot.blank 0x72#8 with dst := dst, off := off, imm := imm }
  | .stdw dst off imm => Slot.bytes { Slot.blank 0x7a#8 with dst := dst, off := off, imm := imm }
  | .stxw dst off src => Slot.bytes { Slot.blank 0x63#8 with dst := dst, off := off, src := src }
  | .stxh dst off src => Slot.bytes { Slot.blank 0x6b#8 with dst := dst, off := off, src := src }
  | .stxb dst off src => Slot.bytes { Slot.blank 0x73#8 with dst := dst, off := off, src := src }
  | .stxdw dst off src => Slot.bytes { Slot.blank 0x7b#8 with dst := dst, off := off, src := src }

/-- The `n` bytes of a number, least significant first: how the opcode table numbers an instruction's bits. -/
def bytesOfNat : Nat → Nat → List Byte
  | 0, _ => []
  | n + 1, w => BitVec.ofNat 8 w :: bytesOfNat n (w / 256)

/-- The instruction the decoder reads from an instruction whose table bits are `w`: the low `nbits` bits of `w`, zeros
above them up to two slots, laid out as bytes and decoded. -/
def decodeTableWord (nbits w : Nat) : Option Instr :=
  match decode (bytesOfNat 16 (w % 2 ^ nbits)) with
  | .ok (i, _) => some i
  | .error _ => none

end Sys2Proof
end

