-- ==== Sys2Proof/Machine/Loop.lean ====
section
/-! DEFINITION. The parts of the fetch-decode-execute loop that stand around the execution of an instruction: the budget
check, the fetch with its guards, the step counter (spec/40_execution_loop.md R112 to R116, R121, R122), and the placing
of an instruction where the next fetch finds it. -/

namespace Sys2Proof.Machine

/-- `NSLOTS`: the number of whole slots of the program (R9, R80). -/
def State.nslots (s : State) : Nat := s.program.length / 8

/-- `BUDGET` is a number and the counter has reached it (R122). -/
def State.budgetSpent (s : State) : Bool :=
  match s.params.budget with
  | none => false
  | some b => decide (b ≤ s.icount)

/-- The fetch guard fails: `pc < 0` or `pc >= NSLOTS` (R112). -/
def State.outside (s : State) : Bool := decide (s.pc < 0) || decide ((s.nslots : Int) ≤ s.pc)

/-- Fetch and decode the instruction at `pc`, recomputed from the program at every step (R113): the guard (R112), the
opcode (R114) and the second slot of an `lddw` (R121), in that order (R273). -/
def fetch (s : State) : Except Cause Instr :=
  if s.outside then .error .missingReturn
  else
    match decode (s.program.drop (8 * s.pc.toNat)) with
    | .ok (i, _) => .ok i
    | .error (.unknownOpcode op) => .error (.unknownOpcode op)
    | .error .noSlot => .error .missingReturn
    | .error .noSecondSlot => .error .truncatedProgram

/-- The counter at the end of a step: with a numeric budget one more, unless the step raised (R29, R116, R276). An
`exit` counts like any other completed step. -/
def State.counted (t : State) : State :=
  match t.status, t.params.budget with
  | .fault _, _ => t
  | _, none => t
  | _, some _ => { t with icount := t.icount + 1 }

/-- Apply the counter to the outcome of an execution. -/
def countStep : Result → Result
  | .next t => .next t.counted
  | .fault r => .fault r
  | .refused r => .refused r

/-- A program with some bytes laid over it from a byte offset on, zeros before them where it was shorter. -/
def overlay (program : List Byte) (k : Nat) (bytes : List Byte) : List Byte :=
  program.take k ++ List.replicate (k - program.length) 0x00#8 ++ bytes ++ program.drop (k + bytes.length)

/-- Put the bytes of an instruction at the slot `pc`, and everything else that the next fetch needs: a `pc` that is a
slot index, a running status and a budget that is not used up. On a running core with `pc` not negative and budget left,
only the program changes (log entry 3). -/
def State.placeInstr (s : State) (bytes : List Byte) : State :=
  { s with
    pc := s.pc.toNat
    status := .running
    program := overlay s.program (8 * s.pc.toNat) bytes
    params := if s.budgetSpent then { s.params with budget := none } else s.params }

end Sys2Proof.Machine
end

