-- ==== Sys2Proof/Machine/Step.lean ====
section
/-! DEFINITION. The step of spec/40_execution_loop.md R116, in the order of its checks: the status, the budget, the
fetch with its guards, the execution, the counter. -/

namespace Sys2Proof.Machine

/-- One step. A terminal status has no step: the whole state is frozen, which for a total function is the identity
(R119, R277; log entry 8). -/
def step (s : State) : Host.Outcome State Fault Refusal :=
  match s.status with
  | .returned _ => .next s
  | .fault _ => .next s
  | .running =>
    if s.budgetSpent then raise .budgetExhausted s
    else
      match fetch s with
      | .error c => raise c s
      | .ok i => countStep (exec i s)

/-- The state with an instruction, whose table bits are `w`, stored at the slot the next step fetches: `nbits` bits of
`w`, zeros above them up to the two slots of the longest instruction (log entry 3). -/
def State.withFetchWord (s : State) (nbits w : Nat) : State := s.placeInstr (bytesOfNat 16 (w % 2 ^ nbits))

end Sys2Proof.Machine
end

