-- ==== Sys2Proof/Machine/Boundary.lean ====
section
/-! DEFINITION. The host's side of the core: the registrations and the reset procedure it applies before a run
(spec/00_scope.md R14, spec/70_reset_and_hazards.md R300 to R306), the result port it reads after one (R15, R279), and
the codes and kinds of the causes (spec/60_exceptions.md R270, R271). -/

namespace Sys2Proof.Machine

/-- Remove the entry of a key. -/
def unregister (key : ImmField) : Registry → Registry
  | [] => []
  | (k, h) :: rest => if k = key then unregister key rest else (k, h) :: unregister key rest

/-- `register_helper(key, function)`: inserts or replaces the mapping for the key (R14, R303). -/
def registerHelper (reg : Registry) (key : ImmField) (h : Helper) : Registry := (key, h) :: unregister key reg

/-- The registry in force after a list of registrations, the later of two for one key winning (R303). -/
def registryOf : List (ImmField × Helper) → Registry :=
  List.foldl (fun reg kh => registerHelper reg kh.1 kh.2) []

/-- The cells that the host's initial bytes give a region of `size` bytes from offset `k` on (R12, R300): bytes that are
zero stay unlisted and bytes past the end of the region are dropped; offsets for which the host gives no byte are zero
(log entry 16). -/
def cellsOf (size : Nat) : Nat → List Byte → Memory
  | _, [] => []
  | k, b :: bs => if k < size ∧ b ≠ 0x00#8 then (k, b) :: cellsOf size (k + 1) bs else cellsOf size (k + 1) bs

/-- The load check: a length that is no multiple of 8 leaves the core faulted before any step (R111). -/
def loadStatus (program : List Byte) : Status :=
  if program.length % 8 = 0 then .running else .fault .truncatedProgram

/-- The reset procedure of R300 for a run with these parameters, program, registry and initial bytes. The Stack lists
nothing: `STACK_INIT` is free (R302). -/
def State.start (p : Params) (program : List Byte) (helpers : Registry) (memInit : List Byte) : State :=
  { pc := 0
    regs := RegFile.reset p
    addressSpace := cellsOf p.memSize 0 memInit
    stack := []
    status := loadStatus program
    icount := 0
    events := []
    params := p
    program := program
    helpers := helpers }

/-- A second run of the same core: the whole of reset again; nothing of the first run survives (R306). -/
def State.restart (s : State) (memInit : List Byte) : State := State.start s.params s.program s.helpers memInit

/-- What the result port presents at the end of a run: exactly one of a returned value and a fault (R15, R279). -/
inductive RunResult where
  | returned (value : Word)
  | fault (cause : Cause)
  deriving DecidableEq, Repr

/-- The result port: nothing while the core runs (R110). -/
def State.result (s : State) : Option RunResult :=
  match s.status with
  | .running => none
  | .returned v => some (.returned v)
  | .fault c => some (.fault c)

/-- The code of a cause, the first column of R270. -/
def Cause.code : Cause → Nat
  | .truncatedProgram => 1
  | .invalidSwapWidth _ => 2
  | .invalidRegister _ => 3
  | .divideByZero => 4
  | .memoryFault _ _ => 5
  | .unknownOpcode _ => 6
  | .missingReturn => 7
  | .budgetExhausted => 8

/-- The kinds of the source's taxonomy that a fault can have (R271). -/
inductive FaultKind where
  | decodeFault | arithmeticFault | memoryFault | controlFault | budgetFault
  deriving DecidableEq, Repr

/-- The kind of a cause (R271). -/
def Cause.kind : Cause → FaultKind
  | .truncatedProgram => .decodeFault
  | .invalidSwapWidth _ => .decodeFault
  | .invalidRegister _ => .decodeFault
  | .divideByZero => .arithmeticFault
  | .memoryFault _ _ => .memoryFault
  | .unknownOpcode _ => .controlFault
  | .missingReturn => .controlFault
  | .budgetExhausted => .budgetFault

end Sys2Proof.Machine
end

