-- ==== Sys2Proof/WellFormed.lean ====
section
/-! DEFINITION. Which register fields an instruction uses (the table of spec/30_encoding.md R83) and what a well-formed
instruction is: every register field it uses names a register (R23, R86) and a byte swap selects one of the three
widths (R93, R260). An ill-formed instruction is no encoding error: it decodes, and the step that executes it ends
the run with `InvalidRegister` or `InvalidSwapWidth`. -/

namespace Sys2Proof

/-- The `dst` field, for the forms that use it (R83). -/
def Instr.usedDst : Instr → Option RegField
  | .add64Imm dst _ => some dst
  | .add64Reg dst _ => some dst
  | .sub64Imm dst _ => some dst
  | .sub64Reg dst _ => some dst
  | .mul64Imm dst _ => some dst
  | .mul64Reg dst _ => some dst
  | .div64Imm dst _ => some dst
  | .div64Reg dst _ => some dst
  | .or64Imm dst _ => some dst
  | .or64Reg dst _ => some dst
  | .and64Imm dst _ => some dst
  | .and64Reg dst _ => some dst
  | .lsh64Imm dst _ => some dst
  | .lsh64Reg dst _ => some dst
  | .rsh64Imm dst _ => some dst
  | .rsh64Reg dst _ => some dst
  | .neg64 dst => some dst
  | .mod64Imm dst _ => some dst
  | .mod64Reg dst _ => some dst
  | .xor64Imm dst _ => some dst
  | .xor64Reg dst _ => some dst
  | .mov64Imm dst _ => some dst
  | .mov64Reg dst _ => some dst
  | .arsh64Imm dst _ => some dst
  | .arsh64Reg dst _ => some dst
  | .add32Imm dst _ => some dst
  | .add32Reg dst _ => some dst
  | .sub32Imm dst _ => some dst
  | .sub32Reg dst _ => some dst
  | .mul32Imm dst _ => some dst
  | .mul32Reg dst _ => some dst
  | .div32Imm dst _ => some dst
  | .div32Reg dst _ => some dst
  | .or32Imm dst _ => some dst
  | .or32Reg dst _ => some dst
  | .and32Imm dst _ => some dst
  | .and32Reg dst _ => some dst
  | .lsh32Imm dst _ => some dst
  | .lsh32Reg dst _ => some dst
  | .rsh32Imm dst _ => some dst
  | .rsh32Reg dst _ => some dst
  | .neg32 dst => some dst
  | .mod32Imm dst _ => some dst
  | .mod32Reg dst _ => some dst
  | .xor32Imm dst _ => some dst
  | .xor32Reg dst _ => some dst
  | .mov32Imm dst _ => some dst
  | .mov32Reg dst _ => some dst
  | .arsh32Imm dst _ => some dst
  | .arsh32Reg dst _ => some dst
  | .le dst _ => some dst
  | .be dst _ => some dst
  | .ja _ => none
  | .jeqImm dst _ _ => some dst
  | .jeqReg dst _ _ => some dst
  | .jgtImm dst _ _ => some dst
  | .jgtReg dst _ _ => some dst
  | .jgeImm dst _ _ => some dst
  | .jgeReg dst _ _ => some dst
  | .jsetImm dst _ _ => some dst
  | .jsetReg dst _ _ => some dst
  | .jneImm dst _ _ => some dst
  | .jneReg dst _ _ => some dst
  | .jsgtImm dst _ _ => some dst
  | .jsgtReg dst _ _ => some dst
  | .jsgeImm dst _ _ => some dst
  | .jsgeReg dst _ _ => some dst
  | .jltImm dst _ _ => some dst
  | .jltReg dst _ _ => some dst
  | .jleImm dst _ _ => some dst
  | .jleReg dst _ _ => some dst
  | .jsltImm dst _ _ => some dst
  | .jsltReg dst _ _ => some dst
  | .jsleImm dst _ _ => some dst
  | .jsleReg dst _ _ => some dst
  | .call _ => none
  | .exit => none
  | .lddw dst _ _ => some dst
  | .ldabsw _ => none
  | .ldabsh _ => none
  | .ldabsb _ => none
  | .ldabsdw _ => none
  | .ldindw _ _ => none
  | .ldindh _ _ => none
  | .ldindb _ _ => none
  | .ldinddw _ _ => none
  | .ldxw dst _ _ => some dst
  | .ldxh dst _ _ => some dst
  | .ldxb dst _ _ => some dst
  | .ldxdw dst _ _ => some dst
  | .stw dst _ _ => some dst
  | .sth dst _ _ => some dst
  | .stb dst _ _ => some dst
  | .stdw dst _ _ => some dst
  | .stxw dst _ _ => some dst
  | .stxh dst _ _ => some dst
  | .stxb dst _ _ => some dst
  | .stxdw dst _ _ => some dst

/-- The `src` field, for the forms that use it (R83). -/
def Instr.usedSrc : Instr → Option RegField
  | .add64Imm _ _ => none
  | .add64Reg _ src => some src
  | .sub64Imm _ _ => none
  | .sub64Reg _ src => some src
  | .mul64Imm _ _ => none
  | .mul64Reg _ src => some src
  | .div64Imm _ _ => none
  | .div64Reg _ src => some src
  | .or64Imm _ _ => none
  | .or64Reg _ src => some src
  | .and64Imm _ _ => none
  | .and64Reg _ src => some src
  | .lsh64Imm _ _ => none
  | .lsh64Reg _ src => some src
  | .rsh64Imm _ _ => none
  | .rsh64Reg _ src => some src
  | .neg64 _ => none
  | .mod64Imm _ _ => none
  | .mod64Reg _ src => some src
  | .xor64Imm _ _ => none
  | .xor64Reg _ src => some src
  | .mov64Imm _ _ => none
  | .mov64Reg _ src => some src
  | .arsh64Imm _ _ => none
  | .arsh64Reg _ src => some src
  | .add32Imm _ _ => none
  | .add32Reg _ src => some src
  | .sub32Imm _ _ => none
  | .sub32Reg _ src => some src
  | .mul32Imm _ _ => none
  | .mul32Reg _ src => some src
  | .div32Imm _ _ => none
  | .div32Reg _ src => some src
  | .or32Imm _ _ => none
  | .or32Reg _ src => some src
  | .and32Imm _ _ => none
  | .and32Reg _ src => some src
  | .lsh32Imm _ _ => none
  | .lsh32Reg _ src => some src
  | .rsh32Imm _ _ => none
  | .rsh32Reg _ src => some src
  | .neg32 _ => none
  | .mod32Imm _ _ => none
  | .mod32Reg _ src => some src
  | .xor32Imm _ _ => none
  | .xor32Reg _ src => some src
  | .mov32Imm _ _ => none
  | .mov32Reg _ src => some src
  | .arsh32Imm _ _ => none
  | .arsh32Reg _ src => some src
  | .le _ _ => none
  | .be _ _ => none
  | .ja _ => none
  | .jeqImm _ _ _ => none
  | .jeqReg _ src _ => some src
  | .jgtImm _ _ _ => none
  | .jgtReg _ src _ => some src
  | .jgeImm _ _ _ => none
  | .jgeReg _ src _ => some src
  | .jsetImm _ _ _ => none
  | .jsetReg _ src _ => some src
  | .jneImm _ _ _ => none
  | .jneReg _ src _ => some src
  | .jsgtImm _ _ _ => none
  | .jsgtReg _ src _ => some src
  | .jsgeImm _ _ _ => none
  | .jsgeReg _ src _ => some src
  | .jltImm _ _ _ => none
  | .jltReg _ src _ => some src
  | .jleImm _ _ _ => none
  | .jleReg _ src _ => some src
  | .jsltImm _ _ _ => none
  | .jsltReg _ src _ => some src
  | .jsleImm _ _ _ => none
  | .jsleReg _ src _ => some src
  | .call _ => none
  | .exit => none
  | .lddw _ _ _ => none
  | .ldabsw _ => none
  | .ldabsh _ => none
  | .ldabsb _ => none
  | .ldabsdw _ => none
  | .ldindw src _ => some src
  | .ldindh src _ => some src
  | .ldindb src _ => some src
  | .ldinddw src _ => some src
  | .ldxw _ src _ => some src
  | .ldxh _ src _ => some src
  | .ldxb _ src _ => some src
  | .ldxdw _ src _ => some src
  | .stw _ _ _ => none
  | .sth _ _ _ => none
  | .stb _ _ _ => none
  | .stdw _ _ _ => none
  | .stxw _ _ src => some src
  | .stxh _ _ src => some src
  | .stxb _ _ src => some src
  | .stxdw _ _ src => some src

/-- The width operand of a byte swap, `signed_32(imm)` in bits (R84, R260). -/
def Instr.swapWidth : Instr → Option Int
  | .add64Imm _ _ => none
  | .add64Reg _ _ => none
  | .sub64Imm _ _ => none
  | .sub64Reg _ _ => none
  | .mul64Imm _ _ => none
  | .mul64Reg _ _ => none
  | .div64Imm _ _ => none
  | .div64Reg _ _ => none
  | .or64Imm _ _ => none
  | .or64Reg _ _ => none
  | .and64Imm _ _ => none
  | .and64Reg _ _ => none
  | .lsh64Imm _ _ => none
  | .lsh64Reg _ _ => none
  | .rsh64Imm _ _ => none
  | .rsh64Reg _ _ => none
  | .neg64 _ => none
  | .mod64Imm _ _ => none
  | .mod64Reg _ _ => none
  | .xor64Imm _ _ => none
  | .xor64Reg _ _ => none
  | .mov64Imm _ _ => none
  | .mov64Reg _ _ => none
  | .arsh64Imm _ _ => none
  | .arsh64Reg _ _ => none
  | .add32Imm _ _ => none
  | .add32Reg _ _ => none
  | .sub32Imm _ _ => none
  | .sub32Reg _ _ => none
  | .mul32Imm _ _ => none
  | .mul32Reg _ _ => none
  | .div32Imm _ _ => none
  | .div32Reg _ _ => none
  | .or32Imm _ _ => none
  | .or32Reg _ _ => none
  | .and32Imm _ _ => none
  | .and32Reg _ _ => none
  | .lsh32Imm _ _ => none
  | .lsh32Reg _ _ => none
  | .rsh32Imm _ _ => none
  | .rsh32Reg _ _ => none
  | .neg32 _ => none
  | .mod32Imm _ _ => none
  | .mod32Reg _ _ => none
  | .xor32Imm _ _ => none
  | .xor32Reg _ _ => none
  | .mov32Imm _ _ => none
  | .mov32Reg _ _ => none
  | .arsh32Imm _ _ => none
  | .arsh32Reg _ _ => none
  | .le _ imm => some imm.toInt
  | .be _ imm => some imm.toInt
  | .ja _ => none
  | .jeqImm _ _ _ => none
  | .jeqReg _ _ _ => none
  | .jgtImm _ _ _ => none
  | .jgtReg _ _ _ => none
  | .jgeImm _ _ _ => none
  | .jgeReg _ _ _ => none
  | .jsetImm _ _ _ => none
  | .jsetReg _ _ _ => none
  | .jneImm _ _ _ => none
  | .jneReg _ _ _ => none
  | .jsgtImm _ _ _ => none
  | .jsgtReg _ _ _ => none
  | .jsgeImm _ _ _ => none
  | .jsgeReg _ _ _ => none
  | .jltImm _ _ _ => none
  | .jltReg _ _ _ => none
  | .jleImm _ _ _ => none
  | .jleReg _ _ _ => none
  | .jsltImm _ _ _ => none
  | .jsltReg _ _ _ => none
  | .jsleImm _ _ _ => none
  | .jsleReg _ _ _ => none
  | .call _ => none
  | .exit => none
  | .lddw _ _ _ => none
  | .ldabsw _ => none
  | .ldabsh _ => none
  | .ldabsb _ => none
  | .ldabsdw _ => none
  | .ldindw _ _ => none
  | .ldindh _ _ => none
  | .ldindb _ _ => none
  | .ldinddw _ _ => none
  | .ldxw _ _ _ => none
  | .ldxh _ _ _ => none
  | .ldxb _ _ _ => none
  | .ldxdw _ _ _ => none
  | .stw _ _ _ => none
  | .sth _ _ _ => none
  | .stb _ _ _ => none
  | .stdw _ _ _ => none
  | .stxw _ _ _ => none
  | .stxh _ _ _ => none
  | .stxb _ _ _ => none
  | .stxdw _ _ _ => none

/-- A register field names a register when it is 0 to 10 (R23, R86). -/
abbrev RegField.names (f : RegField) : Prop := f.toNat ≤ 10

/-- The three widths a byte swap accepts (R260, R263). -/
abbrev validSwapWidth (n : Int) : Prop := n = 16 ∨ n = 32 ∨ n = 64

/-- Well-formed: the used `dst` field, the used `src` field and the swap width are all legal. -/
abbrev Instr.WellFormed (i : Instr) : Prop :=
  (∀ f ∈ i.usedDst, RegField.names f) ∧ (∀ f ∈ i.usedSrc, RegField.names f) ∧ (∀ n ∈ i.swapWidth, validSwapWidth n)

end Sys2Proof
end

