-- ==== Sys2Proof/Safety.lean ====
section
/-! DEFINITION. The words the claims are made in: what each instruction may write, the frames of a step, and the
invariant that every step keeps. -/

namespace Sys2Proof

/-- The register field an instruction may write: its `dst` field, or `r0` for the instructions that write it implicitly
(R22). -/
def Instr.destination : Instr → Option RegField
  | .add64Imm dst _ => some dst
  | .add64Reg dst _ => some dst
  | .sub64Imm dst _ => some dst
  | .sub64Reg dst _ => some dst
  | .mul64Imm dst _ => some dst
  | .mul64Reg dst _ => some dst
  | .div64Imm dst _ => some dst
  | .div64Reg dst _ => some dst
  | .or64Imm dst _ => some dst
  | .or64Reg dst _ => some dst
  | .and64Imm dst _ => some dst
  | .and64Reg dst _ => some dst
  | .lsh64Imm dst _ => some dst
  | .lsh64Reg dst _ => some dst
  | .rsh64Imm dst _ => some dst
  | .rsh64Reg dst _ => some dst
  | .neg64 dst => some dst
  | .mod64Imm dst _ => some dst
  | .mod64Reg dst _ => some dst
  | .xor64Imm dst _ => some dst
  | .xor64Reg dst _ => some dst
  | .mov64Imm dst _ => some dst
  | .mov64Reg dst _ => some dst
  | .arsh64Imm dst _ => some dst
  | .arsh64Reg dst _ => some dst
  | .add32Imm dst _ => some dst
  | .add32Reg dst _ => some dst
  | .sub32Imm dst _ => some dst
  | .sub32Reg dst _ => some dst
  | .mul32Imm dst _ => some dst
  | .mul32Reg dst _ => some dst
  | .div32Imm dst _ => some dst
  | .div32Reg dst _ => some dst
  | .or32Imm dst _ => some dst
  | .or32Reg dst _ => some dst
  | .and32Imm dst _ => some dst
  | .and32Reg dst _ => some dst
  | .lsh32Imm dst _ => some dst
  | .lsh32Reg dst _ => some dst
  | .rsh32Imm dst _ => some dst
  | .rsh32Reg dst _ => some dst
  | .neg32 dst => some dst
  | .mod32Imm dst _ => some dst
  | .mod32Reg dst _ => some dst
  | .xor32Imm dst _ => some dst
  | .xor32Reg dst _ => some dst
  | .mov32Imm dst _ => some dst
  | .mov32Reg dst _ => some dst
  | .arsh32Imm dst _ => some dst
  | .arsh32Reg dst _ => some dst
  | .le dst _ => some dst
  | .be dst _ => some dst
  | .ja _ => none
  | .jeqImm _ _ _ => none
  | .jeqReg _ _ _ => none
  | .jgtImm _ _ _ => none
  | .jgtReg _ _ _ => none
  | .jgeImm _ _ _ => none
  | .jgeReg _ _ _ => none
  | .jsetImm _ _ _ => none
  | .jsetReg _ _ _ => none
  | .jneImm _ _ _ => none
  | .jneReg _ _ _ => none
  | .jsgtImm _ _ _ => none
  | .jsgtReg _ _ _ => none
  | .jsgeImm _ _ _ => none
  | .jsgeReg _ _ _ => none
  | .jltImm _ _ _ => none
  | .jltReg _ _ _ => none
  | .jleImm _ _ _ => none
  | .jleReg _ _ _ => none
  | .jsltImm _ _ _ => none
  | .jsltReg _ _ _ => none
  | .jsleImm _ _ _ => none
  | .jsleReg _ _ _ => none
  | .call _ => some 0#4
  | .exit => none
  | .lddw dst _ _ => some dst
  | .ldabsw _ => some 0#4
  | .ldabsh _ => some 0#4
  | .ldabsb _ => some 0#4
  | .ldabsdw _ => some 0#4
  | .ldindw _ _ => some 0#4
  | .ldindh _ _ => some 0#4
  | .ldindb _ _ => some 0#4
  | .ldinddw _ _ => some 0#4
  | .ldxw dst _ _ => some dst
  | .ldxh dst _ _ => some dst
  | .ldxb dst _ _ => some dst
  | .ldxdw dst _ _ => some dst
  | .stw _ _ _ => none
  | .sth _ _ _ => none
  | .stb _ _ _ => none
  | .stdw _ _ _ => none
  | .stxw _ _ _ => none
  | .stxh _ _ _ => none
  | .stxb _ _ _ => none
  | .stxdw _ _ _ => none

/-- The jump offset of the instructions that can set `pc` to anything but the next instruction (R190). -/
def Instr.jumpOff : Instr → Option OffField
  | .add64Imm _ _ => none
  | .add64Reg _ _ => none
  | .sub64Imm _ _ => none
  | .sub64Reg _ _ => none
  | .mul64Imm _ _ => none
  | .mul64Reg _ _ => none
  | .div64Imm _ _ => none
  | .div64Reg _ _ => none
  | .or64Imm _ _ => none
  | .or64Reg _ _ => none
  | .and64Imm _ _ => none
  | .and64Reg _ _ => none
  | .lsh64Imm _ _ => none
  | .lsh64Reg _ _ => none
  | .rsh64Imm _ _ => none
  | .rsh64Reg _ _ => none
  | .neg64 _ => none
  | .mod64Imm _ _ => none
  | .mod64Reg _ _ => none
  | .xor64Imm _ _ => none
  | .xor64Reg _ _ => none
  | .mov64Imm _ _ => none
  | .mov64Reg _ _ => none
  | .arsh64Imm _ _ => none
  | .arsh64Reg _ _ => none
  | .add32Imm _ _ => none
  | .add32Reg _ _ => none
  | .sub32Imm _ _ => none
  | .sub32Reg _ _ => none
  | .mul32Imm _ _ => none
  | .mul32Reg _ _ => none
  | .div32Imm _ _ => none
  | .div32Reg _ _ => none
  | .or32Imm _ _ => none
  | .or32Reg _ _ => none
  | .and32Imm _ _ => none
  | .and32Reg _ _ => none
  | .lsh32Imm _ _ => none
  | .lsh32Reg _ _ => none
  | .rsh32Imm _ _ => none
  | .rsh32Reg _ _ => none
  | .neg32 _ => none
  | .mod32Imm _ _ => none
  | .mod32Reg _ _ => none
  | .xor32Imm _ _ => none
  | .xor32Reg _ _ => none
  | .mov32Imm _ _ => none
  | .mov32Reg _ _ => none
  | .arsh32Imm _ _ => none
  | .arsh32Reg _ _ => none
  | .le _ _ => none
  | .be _ _ => none
  | .ja off => some off
  | .jeqImm _ _ off => some off
  | .jeqReg _ _ off => some off
  | .jgtImm _ _ off => some off
  | .jgtReg _ _ off => some off
  | .jgeImm _ _ off => some off
  | .jgeReg _ _ off => some off
  | .jsetImm _ _ off => some off
  | .jsetReg _ _ off => some off
  | .jneImm _ _ off => some off
  | .jneReg _ _ off => some off
  | .jsgtImm _ _ off => some off
  | .jsgtReg _ _ off => some off
  | .jsgeImm _ _ off => some off
  | .jsgeReg _ _ off => some off
  | .jltImm _ _ off => some off
  | .jltReg _ _ off => some off
  | .jleImm _ _ off => some off
  | .jleReg _ _ off => some off
  | .jsltImm _ _ off => some off
  | .jsltReg _ _ off => some off
  | .jsleImm _ _ off => some off
  | .jsleReg _ _ off => some off
  | .call _ => none
  | .exit => none
  | .lddw _ _ _ => none
  | .ldabsw _ => none
  | .ldabsh _ => none
  | .ldabsb _ => none
  | .ldabsdw _ => none
  | .ldindw _ _ => none
  | .ldindh _ _ => none
  | .ldindb _ _ => none
  | .ldinddw _ _ => none
  | .ldxw _ _ _ => none
  | .ldxh _ _ _ => none
  | .ldxb _ _ _ => none
  | .ldxdw _ _ _ => none
  | .stw _ _ _ => none
  | .sth _ _ _ => none
  | .stb _ _ _ => none
  | .stdw _ _ _ => none
  | .stxw _ _ _ => none
  | .stxh _ _ _ => none
  | .stxb _ _ _ => none
  | .stxdw _ _ _ => none

/-- The base field, the offset and the width of a store (R230). -/
def Instr.storeShape : Instr → Option (RegField × OffField × Nat)
  | .add64Imm _ _ => none
  | .add64Reg _ _ => none
  | .sub64Imm _ _ => none
  | .sub64Reg _ _ => none
  | .mul64Imm _ _ => none
  | .mul64Reg _ _ => none
  | .div64Imm _ _ => none
  | .div64Reg _ _ => none
  | .or64Imm _ _ => none
  | .or64Reg _ _ => none
  | .and64Imm _ _ => none
  | .and64Reg _ _ => none
  | .lsh64Imm _ _ => none
  | .lsh64Reg _ _ => none
  | .rsh64Imm _ _ => none
  | .rsh64Reg _ _ => none
  | .neg64 _ => none
  | .mod64Imm _ _ => none
  | .mod64Reg _ _ => none
  | .xor64Imm _ _ => none
  | .xor64Reg _ _ => none
  | .mov64Imm _ _ => none
  | .mov64Reg _ _ => none
  | .arsh64Imm _ _ => none
  | .arsh64Reg _ _ => none
  | .add32Imm _ _ => none
  | .add32Reg _ _ => none
  | .sub32Imm _ _ => none
  | .sub32Reg _ _ => none
  | .mul32Imm _ _ => none
  | .mul32Reg _ _ => none
  | .div32Imm _ _ => none
  | .div32Reg _ _ => none
  | .or32Imm _ _ => none
  | .or32Reg _ _ => none
  | .and32Imm _ _ => none
  | .and32Reg _ _ => none
  | .lsh32Imm _ _ => none
  | .lsh32Reg _ _ => none
  | .rsh32Imm _ _ => none
  | .rsh32Reg _ _ => none
  | .neg32 _ => none
  | .mod32Imm _ _ => none
  | .mod32Reg _ _ => none
  | .xor32Imm _ _ => none
  | .xor32Reg _ _ => none
  | .mov32Imm _ _ => none
  | .mov32Reg _ _ => none
  | .arsh32Imm _ _ => none
  | .arsh32Reg _ _ => none
  | .le _ _ => none
  | .be _ _ => none
  | .ja _ => none
  | .jeqImm _ _ _ => none
  | .jeqReg _ _ _ => none
  | .jgtImm _ _ _ => none
  | .jgtReg _ _ _ => none
  | .jgeImm _ _ _ => none
  | .jgeReg _ _ _ => none
  | .jsetImm _ _ _ => none
  | .jsetReg _ _ _ => none
  | .jneImm _ _ _ => none
  | .jneReg _ _ _ => none
  | .jsgtImm _ _ _ => none
  | .jsgtReg _ _ _ => none
  | .jsgeImm _ _ _ => none
  | .jsgeReg _ _ _ => none
  | .jltImm _ _ _ => none
  | .jltReg _ _ _ => none
  | .jleImm _ _ _ => none
  | .jleReg _ _ _ => none
  | .jsltImm _ _ _ => none
  | .jsltReg _ _ _ => none
  | .jsleImm _ _ _ => none
  | .jsleReg _ _ _ => none
  | .call _ => none
  | .exit => none
  | .lddw _ _ _ => none
  | .ldabsw _ => none
  | .ldabsh _ => none
  | .ldabsb _ => none
  | .ldabsdw _ => none
  | .ldindw _ _ => none
  | .ldindh _ _ => none
  | .ldindb _ _ => none
  | .ldinddw _ _ => none
  | .ldxw _ _ _ => none
  | .ldxh _ _ _ => none
  | .ldxb _ _ _ => none
  | .ldxdw _ _ _ => none
  | .stw dst off _ => some (dst, off, 4)
  | .sth dst off _ => some (dst, off, 2)
  | .stb dst off _ => some (dst, off, 1)
  | .stdw dst off _ => some (dst, off, 8)
  | .stxw dst off _ => some (dst, off, 4)
  | .stxh dst off _ => some (dst, off, 2)
  | .stxb dst off _ => some (dst, off, 1)
  | .stxdw dst off _ => some (dst, off, 8)

end Sys2Proof

namespace Sys2Proof.Machine

/-- The bytes that executing an instruction stores to: the region, the offset and the width that its address translates
to; none for an instruction that is no store, and none where the store faults, for its base field, for its source field or
for its address (R59, R115). -/
def storeWindow (i : Instr) (s : State) : Option (Region × Nat × Nat) :=
  match i.storeShape with
  | none => none
  | some (base, off, n) =>
    match regOfField base with
    | none => none
    | some b =>
      if ∀ f ∈ i.usedSrc, RegField.names f then
        (translateAccess s.params reachBoth (offAddress (s.reg b) off) n).map fun w => (w.1, w.2, n)
      else none

/-- Byte `j` of region `Q` lies in a window. -/
def inWindow (w : Option (Region × Nat × Nat)) (Q : Region) (j : Nat) : Prop :=
  ∃ R k n, w = some (R, k, n) ∧ Q = R ∧ k ≤ j ∧ j < k + n

/-- The components that no instruction writes but `exit` and `call`, and the parameters of the run, are as before
(R20, R29, R222, R303). -/
structure KeepsRest (s t : State) : Prop where
  status : t.status = s.status
  icount : t.icount = s.icount
  events : t.events = s.events
  params : t.params = s.params
  program : t.program = s.program
  helpers : t.helpers = s.helpers

/-- Every register is as before. -/
def KeepsRegs (s t : State) : Prop := ∀ q, t.reg q = s.reg q

/-- Every byte of both regions reads as before. -/
def KeepsBytes (s t : State) : Prop := ∀ R k, t.byteAt R k = s.byteAt R k

/-- The frame of a step that writes one register: `r` holds `v`, `pc` is `next`, everything else is as before. -/
structure WritesReg (s t : State) (r : Reg) (v : Word) (next : Int) : Prop where
  dest : t.reg r = v
  others : ∀ q, q ≠ r → t.reg q = s.reg q
  pc : t.pc = next
  bytes : KeepsBytes s t
  rest : KeepsRest s t

/-- The frame of a step that writes nothing but `pc`. -/
structure OnlyMoves (s t : State) (next : Int) : Prop where
  regs : KeepsRegs s t
  pc : t.pc = next
  bytes : KeepsBytes s t
  rest : KeepsRest s t

/-- The frame of a step that stores the `n` low bytes of the number `v` at offset `k` of region `R`, least significant
first: those bytes hold it, every other byte of either region and every register is as before, `pc` is one on. -/
structure StoresBytes (s t : State) (R : Region) (k n v : Nat) : Prop where
  stored : ∀ j, j < n → (t.byteAt R (k + j)).toNat = v / 256 ^ j % 256
  others : ∀ Q j, ¬ (Q = R ∧ k ≤ j ∧ j < k + n) → t.byteAt Q j = s.byteAt Q j
  regs : KeepsRegs s t
  pc : t.pc = s.pc + 1
  rest : KeepsRest s t

/-- The invariant of the core: the parameters are legal (R8), both regions are in canonical form and inside their sizes,
a run that is not faulted at load has whole slots only (R111), `pc` is in the range of R25, the counter does not move
without a budget and never passes it (R29, R122), and no key is registered twice (R34). -/
structure Inv (s : State) : Prop where
  legal : s.params.legal
  addressSpace : Memory.wf Region.addressSpace.unlisted s.params.memSize s.addressSpace
  stack : Memory.wf Region.stack.unlisted s.params.stackSize s.stack
  slots : s.program.length % 8 = 0 ∨ s.status = .fault .truncatedProgram
  pcLow : -32768 ≤ s.pc
  pcHigh : s.pc ≤ (s.nslots : Int) + 32767
  uncounted : s.params.budget = none → s.icount = 0
  counted : ∀ b, s.params.budget = some b → s.icount ≤ b
  keys : (s.helpers.map Prod.fst).Nodup

end Sys2Proof.Machine
end

