-- ==== Sys2Proof/Certificates/Slice0/Obligations.lean ====
section
/-! DEFINITION. The statements for the provers, and the shapes of rules they are made of. A rule shape speaks of one
opcode byte and one constructor: every slot with that opcode byte decodes to the constructor, whatever its ignored fields
hold; for registers named by their fields the execution answers a next state, with its frame; a register field of 11 to 15
ends the run. The values are given as numbers, in the notation of spec/00_scope.md R16. -/

namespace Sys2Proof.Claims

open Sys2Proof Sys2Proof.Machine

/-! ### Numbers (R16) -/

/-- `sext_64(imm)`: `signed_32(imm) mod 2^64`. -/
def sext64 (imm : ImmField) : Nat := (imm.toInt % 2 ^ 64).toNat

/-- `signed_64(a)` of a number below `2^64`. -/
def signed64 (a : Nat) : Int := if a < 2 ^ 63 then a else (a : Int) - 2 ^ 64

/-- The word of a number. -/
def word (n : Nat) : Word := BitVec.ofNat 64 n

def addVal (a b : Nat) : Nat := (a + b) % 2 ^ 64
def subVal (a b : Nat) : Nat := (((a : Int) - b) % 2 ^ 64).toNat
def mulVal (a b : Nat) : Nat := a * b % 2 ^ 64
def divVal (a b : Nat) : Nat := a / b
def modVal (a b : Nat) : Nat := a % b
def orVal (a b : Nat) : Nat := a ||| b
def andVal (a b : Nat) : Nat := a &&& b
def xorVal (a b : Nat) : Nat := a ^^^ b
def movVal (_ b : Nat) : Nat := b
def lshVal (a b : Nat) : Nat := a * 2 ^ (b % 64) % 2 ^ 64
def rshVal (a b : Nat) : Nat := a / 2 ^ (b % 64)
def arshVal (a b : Nat) : Nat := (signed64 a / 2 ^ (b % 64) % 2 ^ 64).toNat
def negVal (a : Nat) : Nat := ((-(a : Int)) % 2 ^ 64).toNat

/-- The 32-bit twin: the 64-bit result and `0xFFFFFFFF` (R160). -/
def low32 (f : Nat → Nat → Nat) (a b : Nat) : Nat := f a b &&& 0xFFFFFFFF

/-- Byte `i` of a number. -/
def byteOf (v i : Nat) : Nat := v / 256 ^ i % 256

/-- `bswap_N(v mod 2^N)` for `N / 8 = n` bytes: the byte of weight `256^i` moves to weight `256^(n-1-i)`. -/
def swapped (n v : Nat) : Nat := ∑ i ∈ Finset.range n, byteOf v i * 256 ^ (n - 1 - i)

/-- The little-endian number of `n` bytes of a region from offset `k` on (R51). -/
def numberAt (s : State) (R : Region) (k n : Nat) : Nat := ∑ j ∈ Finset.range n, (s.byteAt R (k + j)).toNat * 256 ^ j

/-! ### Rule shapes -/

/-- Every slot with this opcode byte decodes to this instruction, whatever its other fields hold (R83). -/
def DecodesAs (op : Byte) (mk : Slot → Instr) : Prop :=
  ∀ (w : Slot) (rest : List Byte), decode (Slot.bytes { w with opcode := op } ++ rest) = .ok (mk w, rest)

/-- Form `ALU_I`: the result `f(x[dst], sext_64(imm))` into `dst`, `pc + 1`, nothing else. -/
def AluImmRule (op : Byte) (mk : RegField → ImmField → Instr) (f : Nat → Nat → Nat) : Prop :=
  DecodesAs op (fun w => mk w.dst w.imm) ∧
  (∀ (d : Reg) (imm : ImmField) (s : State), ∃ t, exec (mk d.field imm) s = .next t ∧
    WritesReg s t d (word (f (s.reg d).toNat (sext64 imm))) (s.pc + 1)) ∧
  (∀ (v : RegField) (imm : ImmField) (s : State), 10 < v.toNat →
    exec (mk v imm) s = .next (s.raise (.invalidRegister v)))

/-- The register check of a form that uses `dst` and `src`: `dst` first, and `src` only when `dst` is legal (R115). -/
def ChecksBoth (run : RegField → RegField → State → Result) : Prop :=
  (∀ (v src : RegField) (s : State), 10 < v.toNat → run v src s = .next (s.raise (.invalidRegister v))) ∧
  (∀ (d : Reg) (v : RegField) (s : State), 10 < v.toNat → run d.field v s = .next (s.raise (.invalidRegister v)))

/-- Form `ALU_R`: the result `f(x[dst], x[src])` into `dst`, `pc + 1`, nothing else. -/
def AluRegRule (op : Byte) (mk : RegField → RegField → Instr) (f : Nat → Nat → Nat) : Prop :=
  DecodesAs op (fun w => mk w.dst w.src) ∧
  (∀ (d r : Reg) (s : State), ∃ t, exec (mk d.field r.field) s = .next t ∧
    WritesReg s t d (word (f (s.reg d).toNat (s.reg r).toNat)) (s.pc + 1)) ∧
  ChecksBoth (fun v src s => exec (mk v src) s)

/-- Form `ALU_U`: the result `f(x[dst])` into `dst`, `pc + 1`, nothing else. -/
def AluUnaryRule (op : Byte) (mk : RegField → Instr) (f : Nat → Nat) : Prop :=
  DecodesAs op (fun w => mk w.dst) ∧
  (∀ (d : Reg) (s : State), ∃ t, exec (mk d.field) s = .next t ∧
    WritesReg s t d (word (f (s.reg d).toNat)) (s.pc + 1)) ∧
  (∀ (v : RegField) (s : State), 10 < v.toNat → exec (mk v) s = .next (s.raise (.invalidRegister v)))

/-- Divide and remainder, form `ALU_I`: the result when `sext_64(imm)` is not zero, `DivideByZero` when it is (R132). -/
def DivImmRule (op : Byte) (mk : RegField → ImmField → Instr) (f : Nat → Nat → Nat) : Prop :=
  DecodesAs op (fun w => mk w.dst w.imm) ∧
  (∀ (d : Reg) (imm : ImmField) (s : State), sext64 imm ≠ 0 → ∃ t, exec (mk d.field imm) s = .next t ∧
    WritesReg s t d (word (f (s.reg d).toNat (sext64 imm))) (s.pc + 1)) ∧
  (∀ (d : Reg) (imm : ImmField) (s : State), sext64 imm = 0 →
    exec (mk d.field imm) s = .next (s.raise .divideByZero)) ∧
  (∀ (v : RegField) (imm : ImmField) (s : State), 10 < v.toNat →
    exec (mk v imm) s = .next (s.raise (.invalidRegister v)))

/-- Divide and remainder, form `ALU_R`: the result when all 64 bits of `x[src]` are not zero, `DivideByZero` when they
are (R132, R161). -/
def DivRegRule (op : Byte) (mk : RegField → RegField → Instr) (f : Nat → Nat → Nat) : Prop :=
  DecodesAs op (fun w => mk w.dst w.src) ∧
  (∀ (d r : Reg) (s : State), (s.reg r).toNat ≠ 0 → ∃ t, exec (mk d.field r.field) s = .next t ∧
    WritesReg s t d (word (f (s.reg d).toNat (s.reg r).toNat)) (s.pc + 1)) ∧
  (∀ (d r : Reg) (s : State), (s.reg r).toNat = 0 →
    exec (mk d.field r.field) s = .next (s.raise .divideByZero)) ∧
  ChecksBoth (fun v src s => exec (mk v src) s)

/-- Form `END`: the three widths with their results, every other width `InvalidSwapWidth` with the width, and the
register tested before the width (R260, R263). -/
def SwapRule (op : Byte) (mk : RegField → ImmField → Instr) (f : Nat → Nat → Nat) : Prop :=
  DecodesAs op (fun w => mk w.dst w.imm) ∧
  (∀ (d : Reg) (s : State), ∀ n ∈ [16, 32, 64], ∃ t, exec (mk d.field (BitVec.ofNat 32 n)) s = .next t ∧
    WritesReg s t d (word (f n (s.reg d).toNat)) (s.pc + 1)) ∧
  (∀ (d : Reg) (imm : ImmField) (s : State), imm.toInt ≠ 16 → imm.toInt ≠ 32 → imm.toInt ≠ 64 →
    exec (mk d.field imm) s = .next (s.raise (.invalidSwapWidth imm.toInt))) ∧
  (∀ (v : RegField) (imm : ImmField) (s : State), 10 < v.toNat →
    exec (mk v imm) s = .next (s.raise (.invalidRegister v)))

/-- Form `JMP_I`: taken exactly when the condition holds of `x[dst]` and `sext_64(imm)`; only `pc` changes (R191, R192). -/
def JumpImmRule (op : Byte) (mk : RegField → ImmField → OffField → Instr) (c : Nat → Nat → Prop) : Prop :=
  DecodesAs op (fun w => mk w.dst w.imm w.off) ∧
  (∀ (d : Reg) (imm : ImmField) (off : OffField) (s : State), c (s.reg d).toNat (sext64 imm) →
    ∃ t, exec (mk d.field imm off) s = .next t ∧ OnlyMoves s t (s.pc + 1 + off.toInt)) ∧
  (∀ (d : Reg) (imm : ImmField) (off : OffField) (s : State), ¬ c (s.reg d).toNat (sext64 imm) →
    ∃ t, exec (mk d.field imm off) s = .next t ∧ OnlyMoves s t (s.pc + 1)) ∧
  (∀ (v : RegField) (imm : ImmField) (off : OffField) (s : State), 10 < v.toNat →
    exec (mk v imm off) s = .next (s.raise (.invalidRegister v)))

/-- Form `JMP_R`: taken exactly when the condition holds of `x[dst]` and `x[src]`; only `pc` changes (R191, R192). -/
def JumpRegRule (op : Byte) (mk : RegField → RegField → OffField → Instr) (c : Nat → Nat → Prop) : Prop :=
  DecodesAs op (fun w => mk w.dst w.src w.off) ∧
  (∀ (d r : Reg) (off : OffField) (s : State), c (s.reg d).toNat (s.reg r).toNat →
    ∃ t, exec (mk d.field r.field off) s = .next t ∧ OnlyMoves s t (s.pc + 1 + off.toInt)) ∧
  (∀ (d r : Reg) (off : OffField) (s : State), ¬ c (s.reg d).toNat (s.reg r).toNat →
    ∃ t, exec (mk d.field r.field off) s = .next t ∧ OnlyMoves s t (s.pc + 1)) ∧
  (∀ off : OffField, ChecksBoth (fun v src s => exec (mk v src off) s))

/-- Form `LDABS` at width `n`: the number at offset `zext_64(imm)` of the Address Space into `r0`, or `MemoryFault` when
the bytes run past its end (R257). -/
def LoadAbsRule (op : Byte) (mk : ImmField → Instr) (n : Nat) : Prop :=
  DecodesAs op (fun w => mk w.imm) ∧
  (∀ (imm : ImmField) (s : State), imm.toNat + n ≤ s.params.memSize → ∃ t, exec (mk imm) s = .next t ∧
    WritesReg s t .r0 (word (numberAt s .addressSpace imm.toNat n)) (s.pc + 1)) ∧
  (∀ (imm : ImmField) (s : State), s.params.memSize < imm.toNat + n →
    exec (mk imm) s = .next (s.raise (.memoryFault ((s.params.memBase.toNat : Int) + imm.toNat) n)))

/-- Form `LDIND` at width `n`: the number at address `a = x[src] + zext_64(imm)` of the Address Space into `r0`, or
`MemoryFault(a, n)` when the bytes are not all inside the Address Space (R258). -/
def LoadIndRule (op : Byte) (mk : RegField → ImmField → Instr) (n : Nat) : Prop :=
  DecodesAs op (fun w => mk w.src w.imm) ∧
  (∀ (r : Reg) (imm : ImmField) (s : State), s.params.memBase.toNat ≤ (s.reg r).toNat + imm.toNat →
    (s.reg r).toNat + imm.toNat + n ≤ s.params.memBase.toNat + s.params.memSize →
    ∃ t, exec (mk r.field imm) s = .next t ∧
      WritesReg s t .r0 (word (numberAt s .addressSpace ((s.reg r).toNat + imm.toNat - s.params.memBase.toNat) n))
        (s.pc + 1)) ∧
  (∀ (r : Reg) (imm : ImmField) (s : State), (s.reg r).toNat + imm.toNat < s.params.memBase.toNat ∨
      s.params.memBase.toNat + s.params.memSize < (s.reg r).toNat + imm.toNat + n →
    exec (mk r.field imm) s = .next (s.raise (.memoryFault (((s.reg r).toNat : Int) + imm.toNat) n))) ∧
  (∀ (v : RegField) (imm : ImmField) (s : State), 10 < v.toNat →
    exec (mk v imm) s = .next (s.raise (.invalidRegister v)))

/-- Form `LDX` at width `n`: the number at address `x[src] + signed_16(off)` into `dst`, or `MemoryFault` (R230, R253). -/
def LoadOffRule (op : Byte) (mk : RegField → RegField → OffField → Instr) (n : Nat) : Prop :=
  DecodesAs op (fun w => mk w.dst w.src w.off) ∧
  (∀ (d r : Reg) (off : OffField) (s : State) (R : Region) (k : Nat),
    translateAccess s.params reachBoth (((s.reg r).toNat : Int) + off.toInt) n = some (R, k) →
    ∃ t, exec (mk d.field r.field off) s = .next t ∧ WritesReg s t d (word (numberAt s R k n)) (s.pc + 1)) ∧
  (∀ (d r : Reg) (off : OffField) (s : State),
    translateAccess s.params reachBoth (((s.reg r).toNat : Int) + off.toInt) n = none →
    exec (mk d.field r.field off) s = .next (s.raise (.memoryFault (((s.reg r).toNat : Int) + off.toInt) n))) ∧
  (∀ off : OffField, ChecksBoth (fun v src s => exec (mk v src off) s))

/-- Form `ST` at width `n`: the low bytes of `sext_64(imm)` at address `x[dst] + signed_16(off)`, every other byte and
every register as before, or `MemoryFault` (R230, R253, R259). -/
def StoreImmRule (op : Byte) (mk : RegField → OffField → ImmField → Instr) (n : Nat) : Prop :=
  DecodesAs op (fun w => mk w.dst w.off w.imm) ∧
  (∀ (d : Reg) (off : OffField) (imm : ImmField) (s : State) (R : Region) (k : Nat),
    translateAccess s.params reachBoth (((s.reg d).toNat : Int) + off.toInt) n = some (R, k) →
    ∃ t, exec (mk d.field off imm) s = .next t ∧ StoresBytes s t R k n (sext64 imm)) ∧
  (∀ (d : Reg) (off : OffField) (imm : ImmField) (s : State),
    translateAccess s.params reachBoth (((s.reg d).toNat : Int) + off.toInt) n = none →
    exec (mk d.field off imm) s = .next (s.raise (.memoryFault (((s.reg d).toNat : Int) + off.toInt) n))) ∧
  (∀ (v : RegField) (off : OffField) (imm : ImmField) (s : State), 10 < v.toNat →
    exec (mk v off imm) s = .next (s.raise (.invalidRegister v)))

/-- Form `STX` at width `n`: the low bytes of `x[src]` at address `x[dst] + signed_16(off)`, every other byte and every
register as before, or `MemoryFault` (R230, R253). -/
def StoreRegRule (op : Byte) (mk : RegField → OffField → RegField → Instr) (n : Nat) : Prop :=
  DecodesAs op (fun w => mk w.dst w.off w.src) ∧
  (∀ (d r : Reg) (off : OffField) (s : State) (R : Region) (k : Nat),
    translateAccess s.params reachBoth (((s.reg d).toNat : Int) + off.toInt) n = some (R, k) →
    ∃ t, exec (mk d.field off r.field) s = .next t ∧ StoresBytes s t R k n (s.reg r).toNat) ∧
  (∀ (d r : Reg) (off : OffField) (s : State),
    translateAccess s.params reachBoth (((s.reg d).toNat : Int) + off.toInt) n = none →
    exec (mk d.field off r.field) s = .next (s.raise (.memoryFault (((s.reg d).toNat : Int) + off.toInt) n))) ∧
  (∀ off : OffField, ChecksBoth (fun v src s => exec (mk v off src) s))

/-- The 32-bit twin of an instruction with two operands, of either form (R160): where the 64-bit instruction faults the
twin faults alike, and else the twin writes the low half of the 64-bit result and zeros above. -/
def MaskedTwin (β : Type) (wide narrow : RegField → β → Instr) : Prop :=
  ∀ (dst : RegField) (b : β) (s : State), ∃ t u, exec (wide dst b) s = .next t ∧ exec (narrow dst b) s = .next u ∧
    ((∃ c, t = s.raise c ∧ u = s.raise c) ∨
      (∃ d : Reg, dst = d.field ∧ WritesReg s t d (t.reg d) (s.pc + 1) ∧
        WritesReg s u d (t.reg d &&& 0x00000000FFFFFFFF#64) (s.pc + 1) ∧ (u.reg d).toNat < 2 ^ 32))

/-- A store of width `n` followed by a load of the same width through the same base and offset (R255). -/
def RoundTrips (st : RegField → OffField → RegField → Instr) (ld : RegField → RegField → OffField → Instr)
    (n : Nat) : Prop :=
  ∀ (b r d : Reg) (off : OffField) (s : State) (R : Region) (k : Nat),
    translateAccess s.params reachBoth (((s.reg b).toNat : Int) + off.toInt) n = some (R, k) →
    ∃ t u, exec (st b.field off r.field) s = .next t ∧ exec (ld d.field b.field off) t = .next u ∧
      u.reg d = word ((s.reg r).toNat % 256 ^ n)

/-- The 158 opcode bytes that are no instruction, in the order of R92. -/
def unknownOpcodes : List Nat :=
  [0x00, 0x01, 0x02, 0x03, 0x06, 0x08, 0x09, 0x0a, 0x0b, 0x0d, 0x0e, 0x10, 0x11, 0x12, 0x13, 0x16, 0x19, 0x1a, 0x1b,
   0x1e, 0x21, 0x22, 0x23, 0x26, 0x29, 0x2a, 0x2b, 0x2e, 0x31, 0x32, 0x33, 0x36, 0x39, 0x3a, 0x3b, 0x3e] ++
  [0x41, 0x42, 0x43, 0x46, 0x49, 0x4a, 0x4b, 0x4e, 0x51, 0x52, 0x53, 0x56, 0x59, 0x5a, 0x5b, 0x5e, 0x60, 0x66, 0x68,
   0x6e, 0x70, 0x76, 0x78, 0x7e, 0x80, 0x81, 0x82, 0x83, 0x86] ++
  [0x88, 0x89, 0x8a, 0x8b, 0x8c, 0x8d, 0x8e, 0x8f, 0x90, 0x91, 0x92, 0x93, 0x96, 0x98, 0x99, 0x9a, 0x9b, 0x9d, 0x9e,
   0xa0, 0xa1, 0xa2, 0xa3, 0xa6, 0xa8, 0xa9, 0xaa, 0xab, 0xae] ++
  [0xb0, 0xb1, 0xb2, 0xb3, 0xb6, 0xb8, 0xb9, 0xba, 0xbb, 0xbe, 0xc0, 0xc1, 0xc2, 0xc3, 0xc6, 0xc8, 0xc9, 0xca, 0xcb,
   0xce, 0xd0, 0xd1, 0xd2, 0xd3, 0xd6, 0xd7, 0xd8, 0xd9, 0xda, 0xdb] ++
  [0xde, 0xdf, 0xe0, 0xe1, 0xe2, 0xe3, 0xe4, 0xe5, 0xe6, 0xe7, 0xe8, 0xe9, 0xea, 0xeb, 0xec, 0xed, 0xee, 0xef,
   0xf0, 0xf1, 0xf2, 0xf3, 0xf4, 0xf5, 0xf6, 0xf7, 0xf8, 0xf9, 0xfa, 0xfb, 0xfc, 0xfd, 0xfe, 0xff]

/-- A running core that has budget left and fetches inside the program. -/
structure Fetches (s : State) : Prop where
  running : s.status = .running
  budget : ∀ b, s.params.budget = some b → s.icount < b
  low : 0 ≤ s.pc
  high : s.pc < s.nslots

/-- The program bytes from the slot at `pc` on. -/
def bytesFromPc (s : State) : List Byte := s.program.drop (8 * s.pc.toNat)

end Sys2Proof.Claims

section Statements

open Sys2Proof Sys2Proof.Machine Sys2Proof.Claims

/-- Decoding an encoded instruction gives it back, for every instruction and every operand. Rests on R81, R82, R83,
R94, R95. -/
def Obligations.DecodeUndoesEncode : Prop :=
  ∀ (i : Instr) (rest : List Byte), decode (encode i ++ rest) = .ok (i, rest)

/-- A decoded instruction is exactly its own slots: 8 bytes, or 16 for lddw. Rests on R80, R94. -/
def Obligations.DecodeConsumesWholeSlots : Prop :=
  ∀ (bytes : List Byte) (i : Instr) (rest : List Byte), decode bytes = .ok (i, rest) →
    bytes = bytes.take (8 * i.slots) ++ rest ∧ bytes.length = 8 * i.slots + rest.length ∧
    (i.slots = 2 ↔ bytes.head? = some 0x18#8)

/-- The fields of a slot are the bit slices of the slot read as one little-endian 64-bit word. Rests on R81, R82. -/
def Obligations.SlotFieldsAreBitSlices : Prop :=
  ∀ b : Fin 8 → Byte, ∀ W : Nat, W = ∑ k : Fin 8, (b k).toNat * 2 ^ (8 * (k : Nat)) →
    let f := Slot.ofBytes (b 0) (b 1) (b 2) (b 3) (b 4) (b 5) (b 6) (b 7)
    f.opcode.toNat = W % 2 ^ 8 ∧ f.dst.toNat = W / 2 ^ 8 % 2 ^ 4 ∧ f.src.toNat = W / 2 ^ 12 % 2 ^ 4 ∧
    f.off.toNat = W / 2 ^ 16 % 2 ^ 16 ∧ f.imm.toNat = W / 2 ^ 32 % 2 ^ 32

/-- Exactly the 158 listed opcode bytes are no instruction, whatever the other fields hold. Rests on R88, R89, R90,
R91, R92. -/
def Obligations.UnknownOpcodesAreThe158 : Prop :=
  unknownOpcodes.length = 158 ∧ unknownOpcodes.Nodup ∧
  (∀ (op : Byte) (w : Slot) (rest : List Byte), op.toNat ∈ unknownOpcodes →
    decode (Slot.bytes { w with opcode := op } ++ rest) = .error (.unknownOpcode op)) ∧
  (∀ (op : Byte) (w : Slot) (rest : List Byte), op.toNat ∉ unknownOpcodes → op ≠ 0x18#8 →
    ∃ i, decode (Slot.bytes { w with opcode := op } ++ rest) = .ok (i, rest)) ∧
  (∀ (w v : Slot) (rest : List Byte),
    ∃ i, decode (Slot.bytes { w with opcode := 0x18#8 } ++ Slot.bytes v ++ rest) = .ok (i, rest))

/-- A register field names the register of its value when it is 0 to 10, and none when it is 11 to 15. Rests on R23,
R86. -/
def Obligations.FieldsNameRegisters : Prop :=
  (∀ v : RegField, (v.toNat ≤ 10 ∧ ∃ r : Reg, regOfField v = some r ∧ r.index = v.toNat ∧ r.field = v) ∨
    (10 < v.toNat ∧ regOfField v = none)) ∧
  (∀ r : Reg, regOfField r.field = some r ∧ r.field.toNat = r.index ∧ r.index ≤ 10)

/-- Words written out from the rules decode to the instructions they stand for. Rests on R81, R88, R89, R90, R91, R94. -/
def Obligations.SampleWordsDecode : Prop :=
  decodeTableWord 64 0xFFFFFFFF00000107 = some (.add64Imm 1 0xFFFFFFFF) ∧
  decodeTableWord 64 0x000000000000210F = some (.add64Reg 1 2) ∧
  decodeTableWord 64 0x000000000000211F = some (.sub64Reg 1 2) ∧
  decodeTableWord 64 0x0000000A000001B7 = some (.mov64Imm 1 10) ∧
  decodeTableWord 64 0x000000000000002C = some (.mul32Reg 0 0) ∧
  decodeTableWord 64 0x00000020FFFFF1D4 = some (.le 1 32) ∧
  decodeTableWord 64 0x00000010000001DC = some (.be 1 16) ∧
  decodeTableWord 64 0x00000000FFFD0155 = some (.jneImm 1 0 0xFFFD) ∧
  decodeTableWord 64 0x00000000FFFF0005 = some (.ja 0xFFFF) ∧
  decodeTableWord 64 0x0000000100000085 = some (.call 1) ∧
  decodeTableWord 8 0x95 = some .exit ∧
  decode [0x18, 0x03, 0, 0, 0x01, 0, 0, 0, 0, 0, 0, 0, 0x02, 0, 0, 0] = .ok (.lddw 3 1 2, []) ∧
  decodeTableWord 64 0x000000110000FF20 = some (.ldabsw 0x11) ∧
  decodeTableWord 64 0x0000000400002040 = some (.ldindw 2 4) ∧
  decodeTableWord 64 0x00000000FFF8A179 = some (.ldxdw 1 10 0xFFF8) ∧
  decodeTableWord 64 0x00000007FFFC0A62 = some (.stw 10 0xFFFC 7) ∧
  decodeTableWord 64 0x00000000FFFF2A73 = some (.stxb 10 0xFFFF 2)

/-- Eleven independent 64-bit registers: a write is read back and no other register changes. Rests on R21. -/
def Obligations.RegisterFileReadsBack : Prop :=
  ∀ (s : State) (r q : Reg) (v : Word), (s.setReg r v).reg q = if q = r then v else s.reg q

/-- The state after reset in the reference configuration. Rests on R36, R314. The model's choices in it: State.reset is
the reference configuration with an empty registry (log entry 2) and the empty program (log entry 3), its MEM_INIT is all
zero (log entry 5), and the counter is a field that holds 0 without a budget too (log entry 10; the spec gives icount only
with a budget). -/
def Obligations.ResetLeavesReferenceValues : Prop :=
  State.reset.pc = 0 ∧ (∀ r : Reg, r ≠ .r10 → State.reset.reg r = 0) ∧ State.reset.reg .r10 = 0x1080 ∧
  (∀ k, State.reset.byteAt .addressSpace k = 0) ∧ State.reset.status = .running ∧ State.reset.icount = 0 ∧
  State.reset.events = [] ∧ State.reset.params.memBase = 0 ∧ State.reset.params.memSize = 1024 ∧
  State.reset.params.stackBase = 0x1000 ∧ State.reset.params.stackSize = 128 ∧ State.reset.params.budget = none ∧
  State.reset.program = [] ∧ State.reset.helpers = []

/-- What the reset procedure leaves, for every legal choice of parameters, program, registry and initial bytes. Rests on
R300. The model's choices in it: STACK_INIT is the free constant Config.stackInit (log entry 4), and the counter is 0 for
every budget, none among them (log entry 10; R300 gives icount only when BUDGET is a number). -/
def Obligations.ResetProcedureValues : Prop :=
  ∀ (p : Params) (program : List Byte) (helpers : Registry) (memInit : List Byte), p.legal → memInit.length = p.memSize →
    let s := State.start p program helpers memInit
    (∀ r : Reg, r ≠ .r1 → r ≠ .r10 → s.reg r = 0) ∧ s.reg .r1 = p.memBase ∧
    (s.reg .r10).toNat = p.stackBase.toNat + p.stackSize ∧ s.pc = 0 ∧
    (∀ k, k < p.memSize → s.byteAt .addressSpace k = memInit.getD k 0) ∧
    (∀ k, s.byteAt .stack k = Config.stackInit k) ∧ s.icount = 0 ∧ s.events = [] ∧
    s.status = (if program.length % 8 = 0 then .running else .fault .truncatedProgram)

/-- A program whose length is no multiple of 8 is rejected at load and never performs a step. Rests on R111, R123. The
spec gives a rejected run no step; that the model's step of it exists and leaves it as it is, is the model's totalisation
(log entry 8). -/
def Obligations.PartialSlotRejectedAtLoad : Prop :=
  (∀ (p : Params) (program : List Byte) (helpers : Registry) (memInit : List Byte), program.length % 8 ≠ 0 →
    (State.start p program helpers memInit).status = .fault .truncatedProgram ∧
    step (State.start p program helpers memInit) = .next (State.start p program helpers memInit)) ∧
  (∀ (p : Params) (program : List Byte) (helpers : Registry) (memInit : List Byte), program.length % 8 = 0 →
    (State.start p program helpers memInit).status = .running) ∧
  (∀ (p : Params) (helpers : Registry) (memInit : List Byte), (State.start p [] helpers memInit).status = .running)

/-- register_helper inserts or replaces the entry of its key and leaves every other key alone. Rests on R14, R303. -/
def Obligations.LaterRegistrationWins : Prop :=
  ∀ (reg : Registry) (key : ImmField) (h : Helper),
    (∀ q, findHelper (registerHelper reg key h) q = if q = key then some h else findHelper reg q) ∧
    ((reg.map Prod.fst).Nodup → ((registerHelper reg key h).map Prod.fst).Nodup)

/-- A step runs the decoded instruction: where the bytes at pc decode to i, the step is exec of i and the counter.
Rests on R116, R117. -/
def Obligations.StepRunsTheDecodedInstruction : Prop :=
  ∀ (s : State) (i : Instr) (rest : List Byte), Fetches s → decode (bytesFromPc s) = .ok (i, rest) →
    step s = countStep (exec i s) ∧
    (∀ t, exec i s = .next t →
      (t.params.budget = none → step s = .next t) ∧
      ((∃ c, t.status = .fault c) → step s = .next t) ∧
      ((∃ b, t.params.budget = some b) → (∀ c, t.status ≠ .fault c) →
        step s = .next { t with icount := t.icount + 1 }))

/-- The instruction that withFetchWord places is the one the very next step runs. Rests on R113, R116. How an
instruction is placed is the model's choice (log entry 3). -/
def Obligations.PlacedWordRunsNext : Prop :=
  ∀ (s : State) (nbits w : Nat) (i : Instr), decodeTableWord nbits w = some i →
    step (s.withFetchWord nbits w) = countStep (exec i (s.withFetchWord nbits w))

/-- A step whose pc is outside the program raises MissingReturn and fetches nothing. Formalises R112. -/
def Obligations.FetchGuardRaisesMissingReturn : Prop :=
  ∀ s : State, s.status = .running → (∀ b, s.params.budget = some b → s.icount < b) →
    s.pc < 0 ∨ ((s.program.length / 8 : Nat) : Int) ≤ s.pc → step s = .next { s with status := .fault .missingReturn }

/-- An unknown opcode byte raises UnknownOpcode with that byte, whatever else the slot holds. Formalises R114. -/
def Obligations.UnknownOpcodeFaults : Prop :=
  ∀ (s : State) (op : Byte) (rest : List Byte), Fetches s → bytesFromPc s = op :: rest → op.toNat ∈ unknownOpcodes →
    step s = .next { s with status := .fault (.unknownOpcode op) }

/-- An lddw in the last slot raises TruncatedProgram, before its dst is tested. Formalises R121. -/
def Obligations.LddwWithoutSecondSlotFaults : Prop :=
  ∀ (s : State) (rest : List Byte), Fetches s → s.program.length % 8 = 0 → s.pc = (s.nslots : Int) - 1 →
    bytesFromPc s = 0x18#8 :: rest → step s = .next { s with status := .fault .truncatedProgram }

/-- A used register field of 11 to 15 raises InvalidRegister before anything else, dst before src. Rests on R115,
R273. -/
def Obligations.RegisterCheckPrecedesExecution : Prop :=
  ∀ (i : Instr) (s : State),
    (∀ v, i.usedDst = some v → 10 < v.toNat → exec i s = .next { s with status := .fault (.invalidRegister v) }) ∧
    (∀ v, i.usedSrc = some v → 10 < v.toNat → (∀ d, i.usedDst = some d → d.toNat ≤ 10) →
      exec i s = .next { s with status := .fault (.invalidRegister v) })

/-- With a budget, a step at the bound raises BudgetExhausted before any fetch, and every other step counts one unless
it raised. Rests on R29, R122, R287. -/
def Obligations.BudgetIsCheckedFirst : Prop :=
  ∀ (s : State) (b : Nat), s.status = .running → s.params.budget = some b →
    (b ≤ s.icount → step s = .next { s with status := .fault .budgetExhausted }) ∧
    (s.icount < b → ∃ t, step s = .next t ∧
      ((∃ c, t = { s with status := .fault c }) ∨ ((∀ c, t.status ≠ .fault c) ∧ t.icount = s.icount + 1)))

/-- A step of a running core completes, returns x[0], or ends with a precise fault: the fault list is closed. Rests on
R119, R272, R276, R292. -/
def Obligations.EveryStepEndsInOneOfThreeWays : Prop :=
  ∀ s : State, s.status = .running → ∃ t, step s = .next t ∧
    (t.status = .running ∨
     (t.status = .returned (s.reg .r0) ∧ t.pc = s.pc ∧ KeepsRegs s t ∧ KeepsBytes s t ∧ t.events = s.events) ∨
     (∃ c, t = { s with status := .fault c }))

/-- Once the status is Returned or Fault the whole state is frozen, for any number of steps. Rests on R277. That a
step of a terminal core exists and is the identity is the model's totalisation (log entry 8). -/
def Obligations.TerminalStatusIsFrozen : Prop :=
  ∀ (s : State) (n : Nat), s.status ≠ .running → Sys2Proof.core.run n s = .next s

/-- With a budget B every run ends: after B - icount + 1 steps the status is terminal. Rests on R122, R313. That a run
which has ended can be run on, and stays as it is, is the model's totalisation (log entry 8): the steps past the end of a
run that ends early, and the `more` steps, are such. -/
def Obligations.BudgetEndsEveryRun : Prop :=
  ∀ (s : State) (b more : Nat), s.params.budget = some b →
    ∃ t : State, Sys2Proof.core.run (b - s.icount + 1 + more) s = .next t ∧ t.status ≠ .running

/-- Every step keeps the invariant of the core. Rests on R25, R34, R57, R111, R122. The model's own clauses in it: the
canonical form of the cells, in which no Address Space cell holds a zero (log entry 5) and every cell is keyed by an offset
inside its region's size (log entry 14), and the counter that is 0 without a budget (log entry 10; the spec gives no counter
then). A step of a terminal core is the identity (log entry 8). -/
def Obligations.StepKeepsTheInvariant : Prop :=
  ∀ s t : State, Inv s → step s = .next t → Inv t

/-- The invariant holds right after reset. Rests on R8, R36. The model's choices: the reference parameters and the empty
registry (log entry 2), the empty program (log entry 3), the canonical form of the cells (log entries 5 and 14), and the
counter that is 0 without a budget (log entry 10). -/
def Obligations.InvariantHoldsAtReset : Prop :=
  Inv State.reset

/-- The invariant holds after the reset procedure, for every legal choice of the host. Rests on R8, R300. The model's
choices: initial bytes of any length, those past MEM_SIZE dropped and missing ones zero (log entry 16; the spec gives
MEM_INIT exactly MEM_SIZE bytes), the canonical form of the cells (log entries 5 and 14), and the counter that is 0 without
a budget (log entry 10). -/
def Obligations.InvariantHoldsAtEveryStart : Prop :=
  ∀ (p : Params) (program : List Byte) (helpers : Registry) (memInit : List Byte), p.legal →
    (helpers.map Prod.fst).Nodup → Inv (State.start p program helpers memInit)

/-- pc lies in [-32768, NSLOTS + 32767] after every step from a pc in that range. Rests on R25. -/
def Obligations.PcStaysInItsRange : Prop :=
  ∀ s t : State, s.status = .running → -32768 ≤ s.pc → s.pc ≤ (s.nslots : Int) + 32767 → step s = .next t →
    -32768 ≤ t.pc ∧ t.pc ≤ (t.nslots : Int) + 32767

/-- No step changes the program, the registry or the parameters. Rests on R20, R69, R303. -/
def Obligations.RunParametersNeverChange : Prop :=
  ∀ s t : State, step s = .next t → t.program = s.program ∧ t.helpers = s.helpers ∧ t.params = s.params

/-- An instruction writes at most its destination register, or the bytes of its store; beside these it sets pc, a missed
call reports, exit and a fault set the status, and nothing else changes. A faulting instruction has no store window and
changes the status alone. Rests on R22, R26, R56, R118, R119, R276. -/
def Obligations.AtMostOneDataWrite : Prop :=
  ∀ (i : Instr) (s t : State), exec i s = .next t →
    (∀ q : Reg, i.destination ≠ some q.field → t.reg q = s.reg q) ∧
    (∀ (Q : Region) (j : Nat), ¬ inWindow (storeWindow i s) Q j → t.byteAt Q j = s.byteAt Q j) ∧
    (i.storeShape ≠ none → i.destination = none) ∧
    (t.events = s.events ∨ ∃ key, i = .call key ∧ t.events = s.events ++ [.helperMiss key]) ∧
    (t.status = s.status ∨ (i = .exit ∧ t = { s with status := .returned (s.reg .r0) }) ∨
      ∃ c, t = { s with status := .fault c }) ∧
    (t.pc = s.pc + i.slots ∨ (∃ off, i.jumpOff = some off ∧ t.pc = s.pc + 1 + off.toInt) ∨
      (i = .exit ∧ t.pc = s.pc) ∨ ∃ c, t = { s with status := .fault c }) ∧
    (∀ c, t = { s with status := .fault c } → storeWindow i s = none) ∧
    t.icount = s.icount ∧ t.params = s.params ∧ t.program = s.program ∧ t.helpers = s.helpers

/-- Only jumps set pc to anything but the next instruction. Rests on R26, R190, R191. -/
def Obligations.OnlyJumpsMoveElsewhere : Prop :=
  ∀ (i : Instr) (s t : State), exec i s = .next t →
    (i.jumpOff = none → t.pc = s.pc ∨ t.pc = s.pc + i.slots) ∧
    (∀ off, i.jumpOff = some off → t.pc = s.pc ∨ t.pc = s.pc + 1 ∨ t.pc = s.pc + 1 + off.toInt)

/-- No instruction can observe the event list. Rests on R15, R222. -/
def Obligations.ReportsAreUnobservable : Prop :=
  ∀ (s t : State) (ev : List Event), step s = .next t → ∃ new, t.events = s.events ++ new ∧
    step { s with events := ev } = .next { t with events := ev ++ new }

/-- No instruction can read or write the instruction counter. Rests on R29, R287. -/
def Obligations.CounterIsUnobservable : Prop :=
  ∀ (i : Instr) (s t : State) (n : Nat), exec i s = .next t →
    t.icount = s.icount ∧ exec i { s with icount := n } = .next { t with icount := n }

/-- Translate: the region and offset of an access wholly inside one region, and nothing for any other. Rests on R57,
R60, R61. -/
def Obligations.TranslateFindsTheRegion : Prop :=
  ∀ (p : Params) (n : Nat), p.legal → n ∈ [1, 2, 4, 8] →
    (∀ k, k + n ≤ p.memSize → translateAccess p reachBoth ((p.memBase.toNat : Int) + k) n = some (.addressSpace, k) ∧
      translateAccess p reachAS ((p.memBase.toNat : Int) + k) n = some (.addressSpace, k)) ∧
    (∀ k, k + n ≤ p.stackSize → translateAccess p reachBoth ((p.stackBase.toNat : Int) + k) n = some (.stack, k)) ∧
    (∀ a : Int, a < p.memBase.toNat ∨ (p.memBase.toNat : Int) + p.memSize < a + n →
      translateAccess p reachAS a n = none ∧
      (a < p.stackBase.toNat ∨ (p.stackBase.toNat : Int) + p.stackSize < a + n → translateAccess p reachBoth a n = none)) ∧
    (∀ a : Int, a < 0 ∨ 2 ^ 64 ≤ a → translateAccess p reachBoth a n = none)

/-- Memory is bytes and nothing else: after a write of any width and value, a read of any width succeeds where it
succeeded before, and each byte of what it reads is the written value's byte where the write covered it and the byte read
before where it did not; so a read inside the write reads its bytes, least significant first. Last, the reads the rule
lists. Formalises R53. -/
def Obligations.MixedWidthReadsSeeBytes : Prop :=
  (∀ (s t : State) (a : Int) (n : Nat) (v : Word), s.params.legal → n ∈ [1, 2, 4, 8] → memWrite s a n v = .ok t →
    (∀ (b : Int) (m : Nat) (r : Nat), m ∈ [1, 2, 4, 8] → memRead s reachBoth b m = .ok r →
      ∃ q, memRead t reachBoth b m = .ok q ∧ q < 256 ^ m ∧ ∀ i, i < m →
        byteOf q i = if a ≤ b + i ∧ b + i < a + n then byteOf v.toNat (b + i - a).toNat else byteOf r i) ∧
    (∀ (b : Int) (m : Nat) (c : Cause), m ∈ [1, 2, 4, 8] → memRead s reachBoth b m = .error c →
      memRead t reachBoth b m = .error c) ∧
    (∀ d m : Nat, m ∈ [1, 2, 4, 8] → d + m ≤ n →
      memRead t reachBoth (a + d) m = .ok (v.toNat / 256 ^ d % 256 ^ m))) ∧
  ∀ (s t : State) (a : Int), s.params.legal → memWrite s a 8 0x1122334455667788 = .ok t →
    memRead t reachBoth a 1 = .ok 0x88 ∧ memRead t reachBoth (a + 1) 1 = .ok 0x77 ∧
    memRead t reachBoth a 2 = .ok 0x7788 ∧ memRead t reachBoth (a + 2) 2 = .ok 0x5566 ∧
    memRead t reachBoth a 4 = .ok 0x55667788 ∧ memRead t reachBoth (a + 4) 4 = .ok 0x11223344 ∧
    memRead t reachBoth (a + 7) 1 = .ok 0x11

/-- A store followed by a load of the same width at the same address loads the stored value, cut to the width. Rests
on R255, R307. -/
def Obligations.StoreThenLoadRoundTrips : Prop :=
  RoundTrips .stxb .ldxb 1 ∧ RoundTrips .stxh .ldxh 2 ∧ RoundTrips .stxw .ldxw 4 ∧ RoundTrips .stxdw .ldxdw 8

/-- The absolute and register-plus-immediate loads do not depend on the Stack. Rests on R55, R60, R257, R258. -/
def Obligations.AbsoluteAndIndirectLoadsIgnoreTheStack : Prop :=
  ∀ (i : Instr) (s t : State) (m : Memory), exec i s = .next t →
    ((∃ imm, i = .ldabsw imm ∨ i = .ldabsh imm ∨ i = .ldabsb imm ∨ i = .ldabsdw imm) ∨
     (∃ src imm, i = .ldindw src imm ∨ i = .ldindh src imm ∨ i = .ldindb src imm ∨ i = .ldinddw src imm)) →
    exec i { s with stack := m } = .next { t with stack := m }

/-- The ten plain 64-bit ALU operations with an immediate: decoding, result, frame, register check. Formalises R134,
R136, R138, R142, R144, R146, R148, R153, R155, R157. -/
def Obligations.Alu64ImmediateForms : Prop :=
  AluImmRule 0x07#8 .add64Imm addVal ∧
  AluImmRule 0x17#8 .sub64Imm subVal ∧
  AluImmRule 0x27#8 .mul64Imm mulVal ∧
  AluImmRule 0x47#8 .or64Imm orVal ∧
  AluImmRule 0x57#8 .and64Imm andVal ∧
  AluImmRule 0x67#8 .lsh64Imm lshVal ∧
  AluImmRule 0x77#8 .rsh64Imm rshVal ∧
  AluImmRule 0xa7#8 .xor64Imm xorVal ∧
  AluImmRule 0xb7#8 .mov64Imm movVal ∧
  AluImmRule 0xc7#8 .arsh64Imm arshVal

/-- The ten plain 64-bit ALU operations with a register: decoding, result, frame, register check. Formalises R135,
R137, R139, R143, R145, R147, R149, R154, R156, R158. -/
def Obligations.Alu64RegisterForms : Prop :=
  AluRegRule 0x0f#8 .add64Reg addVal ∧
  AluRegRule 0x1f#8 .sub64Reg subVal ∧
  AluRegRule 0x2f#8 .mul64Reg mulVal ∧
  AluRegRule 0x4f#8 .or64Reg orVal ∧
  AluRegRule 0x5f#8 .and64Reg andVal ∧
  AluRegRule 0x6f#8 .lsh64Reg lshVal ∧
  AluRegRule 0x7f#8 .rsh64Reg rshVal ∧
  AluRegRule 0xaf#8 .xor64Reg xorVal ∧
  AluRegRule 0xbf#8 .mov64Reg movVal ∧
  AluRegRule 0xcf#8 .arsh64Reg arshVal

/-- Unsigned divide and remainder, 64-bit, both forms, and their fault on a zero divisor. Formalises R140, R141, R151,
R152. -/
def Obligations.DivideAndRemainder64 : Prop :=
  DivImmRule 0x37#8 .div64Imm divVal ∧
  DivRegRule 0x3f#8 .div64Reg divVal ∧
  DivImmRule 0x97#8 .mod64Imm modVal ∧
  DivRegRule 0x9f#8 .mod64Reg modVal

/-- The ten plain 32-bit ALU operations with an immediate: decoding, result, frame, register check. Formalises R164,
R166, R168, R172, R174, R176, R178, R183, R185, R187. -/
def Obligations.Alu32ImmediateForms : Prop :=
  AluImmRule 0x04#8 .add32Imm (low32 addVal) ∧
  AluImmRule 0x14#8 .sub32Imm (low32 subVal) ∧
  AluImmRule 0x24#8 .mul32Imm (low32 mulVal) ∧
  AluImmRule 0x44#8 .or32Imm (low32 orVal) ∧
  AluImmRule 0x54#8 .and32Imm (low32 andVal) ∧
  AluImmRule 0x64#8 .lsh32Imm (low32 lshVal) ∧
  AluImmRule 0x74#8 .rsh32Imm (low32 rshVal) ∧
  AluImmRule 0xa4#8 .xor32Imm (low32 xorVal) ∧
  AluImmRule 0xb4#8 .mov32Imm (low32 movVal) ∧
  AluImmRule 0xc4#8 .arsh32Imm (low32 arshVal)

/-- The ten plain 32-bit ALU operations with a register: decoding, result, frame, register check. Formalises R165,
R167, R169, R173, R175, R177, R179, R184, R186, R188. -/
def Obligations.Alu32RegisterForms : Prop :=
  AluRegRule 0x0c#8 .add32Reg (low32 addVal) ∧
  AluRegRule 0x1c#8 .sub32Reg (low32 subVal) ∧
  AluRegRule 0x2c#8 .mul32Reg (low32 mulVal) ∧
  AluRegRule 0x4c#8 .or32Reg (low32 orVal) ∧
  AluRegRule 0x5c#8 .and32Reg (low32 andVal) ∧
  AluRegRule 0x6c#8 .lsh32Reg (low32 lshVal) ∧
  AluRegRule 0x7c#8 .rsh32Reg (low32 rshVal) ∧
  AluRegRule 0xac#8 .xor32Reg (low32 xorVal) ∧
  AluRegRule 0xbc#8 .mov32Reg (low32 movVal) ∧
  AluRegRule 0xcc#8 .arsh32Reg (low32 arshVal)

/-- Unsigned divide and remainder, 32-bit, both forms, and their fault on a zero divisor. Formalises R170, R171, R181,
R182. -/
def Obligations.DivideAndRemainder32 : Prop :=
  DivImmRule 0x34#8 .div32Imm (low32 divVal) ∧
  DivRegRule 0x3c#8 .div32Reg (low32 divVal) ∧
  DivImmRule 0x94#8 .mod32Imm (low32 modVal) ∧
  DivRegRule 0x9c#8 .mod32Reg (low32 modVal)

/-- Negate at both widths: decoding, result, frame, register check. Formalises R150, R180. -/
def Obligations.NegateBothWidths : Prop :=
  AluUnaryRule 0x87#8 .neg64 negVal ∧
  AluUnaryRule 0x84#8 .neg32 (fun a => negVal a &&& 0xFFFFFFFF)

/-- Every 32-bit ALU instruction is its 64-bit twin with the result masked to 32 bits. Formalises R160. -/
def Obligations.Alu32MasksItsTwin : Prop :=
  MaskedTwin ImmField .add64Imm .add32Imm ∧ MaskedTwin RegField .add64Reg .add32Reg ∧
  MaskedTwin ImmField .sub64Imm .sub32Imm ∧ MaskedTwin RegField .sub64Reg .sub32Reg ∧
  MaskedTwin ImmField .mul64Imm .mul32Imm ∧ MaskedTwin RegField .mul64Reg .mul32Reg ∧
  MaskedTwin ImmField .div64Imm .div32Imm ∧ MaskedTwin RegField .div64Reg .div32Reg ∧
  MaskedTwin ImmField .or64Imm .or32Imm ∧ MaskedTwin RegField .or64Reg .or32Reg ∧
  MaskedTwin ImmField .and64Imm .and32Imm ∧ MaskedTwin RegField .and64Reg .and32Reg ∧
  MaskedTwin ImmField .lsh64Imm .lsh32Imm ∧ MaskedTwin RegField .lsh64Reg .lsh32Reg ∧
  MaskedTwin ImmField .rsh64Imm .rsh32Imm ∧ MaskedTwin RegField .rsh64Reg .rsh32Reg ∧
  MaskedTwin ImmField .mod64Imm .mod32Imm ∧ MaskedTwin RegField .mod64Reg .mod32Reg ∧
  MaskedTwin ImmField .xor64Imm .xor32Imm ∧ MaskedTwin RegField .xor64Reg .xor32Reg ∧
  MaskedTwin ImmField .mov64Imm .mov32Imm ∧ MaskedTwin RegField .mov64Reg .mov32Reg ∧
  MaskedTwin ImmField .arsh64Imm .arsh32Imm ∧ MaskedTwin RegField .arsh64Reg .arsh32Reg ∧
  MaskedTwin Unit (fun d _ => .neg64 d) (fun d _ => .neg32 d)

/-- le and be at the three widths, and every other width as InvalidSwapWidth. Formalises R260, R261, R262. -/
def Obligations.ByteSwaps : Prop :=
  SwapRule 0xd4#8 .le (fun n v => v % 2 ^ n) ∧
  SwapRule 0xdc#8 .be (fun n v => swapped (n / 8) v)

/-- le is idempotent, and be applied twice truncates to the width. Rests on R263. -/
def Obligations.ByteSwapTwice : Prop :=
  ∀ (d : Reg) (s t u : State), ∀ n ∈ [16, 32, 64],
    (exec (.le d.field (BitVec.ofNat 32 n)) s = .next t → exec (.le d.field (BitVec.ofNat 32 n)) t = .next u →
      u.reg d = t.reg d ∧ (u.reg d).toNat = (s.reg d).toNat % 2 ^ n) ∧
    (exec (.be d.field (BitVec.ofNat 32 n)) s = .next t → exec (.be d.field (BitVec.ofNat 32 n)) t = .next u →
      (u.reg d).toNat = (s.reg d).toNat % 2 ^ n)

/-- ja sets pc to the next slot plus its signed offset and changes nothing else. Formalises R194. -/
def Obligations.UnconditionalJump : Prop :=
  DecodesAs 0x05#8 (fun w => .ja w.off) ∧
  (∀ (off : OffField) (s : State), ∃ t, exec (.ja off) s = .next t ∧ OnlyMoves s t (s.pc + 1 + off.toInt))

/-- The eleven conditional jumps against an immediate: decoding, condition, target, frame, register check. Formalises
R195, R197, R199, R201, R203, R205, R207, R209, R211, R213, R215. -/
def Obligations.ConditionalImmediateJumps : Prop :=
  JumpImmRule 0x15#8 .jeqImm (fun a b => a = b) ∧
  JumpImmRule 0x25#8 .jgtImm (fun a b => b < a) ∧
  JumpImmRule 0x35#8 .jgeImm (fun a b => b ≤ a) ∧
  JumpImmRule 0x45#8 .jsetImm (fun a b => a &&& b ≠ 0) ∧
  JumpImmRule 0x55#8 .jneImm (fun a b => a ≠ b) ∧
  JumpImmRule 0x65#8 .jsgtImm (fun a b => signed64 b < signed64 a) ∧
  JumpImmRule 0x75#8 .jsgeImm (fun a b => signed64 b ≤ signed64 a) ∧
  JumpImmRule 0xa5#8 .jltImm (fun a b => a < b) ∧
  JumpImmRule 0xb5#8 .jleImm (fun a b => a ≤ b) ∧
  JumpImmRule 0xc5#8 .jsltImm (fun a b => signed64 a < signed64 b) ∧
  JumpImmRule 0xd5#8 .jsleImm (fun a b => signed64 a ≤ signed64 b)

/-- The eleven conditional jumps against a register: decoding, condition, target, frame, register check. Formalises
R196, R198, R200, R202, R204, R206, R208, R210, R212, R214, R216. -/
def Obligations.ConditionalRegisterJumps : Prop :=
  JumpRegRule 0x1d#8 .jeqReg (fun a b => a = b) ∧
  JumpRegRule 0x2d#8 .jgtReg (fun a b => b < a) ∧
  JumpRegRule 0x3d#8 .jgeReg (fun a b => b ≤ a) ∧
  JumpRegRule 0x4d#8 .jsetReg (fun a b => a &&& b ≠ 0) ∧
  JumpRegRule 0x5d#8 .jneReg (fun a b => a ≠ b) ∧
  JumpRegRule 0x6d#8 .jsgtReg (fun a b => signed64 b < signed64 a) ∧
  JumpRegRule 0x7d#8 .jsgeReg (fun a b => signed64 b ≤ signed64 a) ∧
  JumpRegRule 0xad#8 .jltReg (fun a b => a < b) ∧
  JumpRegRule 0xbd#8 .jleReg (fun a b => a ≤ b) ∧
  JumpRegRule 0xcd#8 .jsltReg (fun a b => signed64 a < signed64 b) ∧
  JumpRegRule 0xdd#8 .jsleReg (fun a b => signed64 a ≤ signed64 b)

/-- call: the helper's result in r0 on a hit, the report on a miss, pc one on either way. Rests on R220, R221, R222.
-/
def Obligations.CallInvokesTheHelper : Prop :=
  DecodesAs 0x85#8 (fun w => .call w.imm) ∧
  (∀ (key : ImmField) (s : State) (h : Helper), findHelper s.helpers key = some h → ∃ t, exec (.call key) s = .next t ∧
    WritesReg s t .r0 (helperResult h (s.reg .r1) (s.reg .r2) (s.reg .r3) (s.reg .r4) (s.reg .r5)) (s.pc + 1)) ∧
  (∀ (key : ImmField) (s : State), findHelper s.helpers key = none →
    exec (.call key) s = .next { s with events := s.events ++ [.helperMiss key], pc := s.pc + 1 })

/-- exit ends the run with all 64 bits of r0 and leaves pc, registers and memory. Formalises R223. -/
def Obligations.ExitReturnsRegisterZero : Prop :=
  DecodesAs 0x95#8 (fun _ => .exit) ∧
  (∀ s : State, exec .exit s = .next { s with status := .returned (s.reg .r0) })

/-- lddw joins the immediates of two slots, advances pc by 2, and ignores the rest of both slots. Rests on R94, R231.
-/
def Obligations.WideImmediateLoad : Prop :=
  (∀ (w v : Slot) (rest : List Byte), decode (Slot.bytes { w with opcode := 0x18#8 } ++ Slot.bytes v ++ rest)
      = .ok (.lddw w.dst w.imm v.imm, rest)) ∧
  (∀ (w : Slot) (rest : List Byte), rest.length < 8 →
    decode (Slot.bytes { w with opcode := 0x18#8 } ++ rest) = .error .noSecondSlot) ∧
  (∀ (d : Reg) (imm imm2 : ImmField) (s : State), ∃ t, exec (.lddw d.field imm imm2) s = .next t ∧
    WritesReg s t d (word (imm.toNat + imm2.toNat * 2 ^ 32)) (s.pc + 2)) ∧
  (∀ (v : RegField) (imm imm2 : ImmField) (s : State), 10 < v.toNat →
    exec (.lddw v imm imm2) s = .next (s.raise (.invalidRegister v)))

/-- The four absolute loads: decoding, value, frame, MemoryFault. Formalises R232, R233, R234, R235. -/
def Obligations.AbsoluteLoads : Prop :=
  LoadAbsRule 0x20#8 .ldabsw 4 ∧
  LoadAbsRule 0x28#8 .ldabsh 2 ∧
  LoadAbsRule 0x30#8 .ldabsb 1 ∧
  LoadAbsRule 0x38#8 .ldabsdw 8

/-- The four register-plus-immediate loads: decoding, address, value, frame, faults. Formalises R236, R237, R238,
R239. -/
def Obligations.IndirectLoads : Prop :=
  LoadIndRule 0x40#8 .ldindw 4 ∧
  LoadIndRule 0x48#8 .ldindh 2 ∧
  LoadIndRule 0x50#8 .ldindb 1 ∧
  LoadIndRule 0x58#8 .ldinddw 8

/-- The four register-plus-offset loads: decoding, address, value, frame, faults. Formalises R240, R241, R242, R243.
-/
def Obligations.OffsetLoads : Prop :=
  LoadOffRule 0x61#8 .ldxw 4 ∧
  LoadOffRule 0x69#8 .ldxh 2 ∧
  LoadOffRule 0x71#8 .ldxb 1 ∧
  LoadOffRule 0x79#8 .ldxdw 8

/-- The four immediate stores: decoding, address, stored bytes, frame, faults. Formalises R244, R245, R246, R247. -/
def Obligations.ImmediateStores : Prop :=
  StoreImmRule 0x62#8 .stw 4 ∧
  StoreImmRule 0x6a#8 .sth 2 ∧
  StoreImmRule 0x72#8 .stb 1 ∧
  StoreImmRule 0x7a#8 .stdw 8

/-- The four register stores: decoding, address, stored bytes, frame, faults. Formalises R248, R249, R250, R251. -/
def Obligations.RegisterStores : Prop :=
  StoreRegRule 0x63#8 .stxw 4 ∧
  StoreRegRule 0x6b#8 .stxh 2 ∧
  StoreRegRule 0x73#8 .stxb 1 ∧
  StoreRegRule 0x7b#8 .stxdw 8

/-- Each of the eight causes has the kind and the code of the spec's tables. Rests on R270, R271. -/
def Obligations.CausesHaveTheirKindsAndCodes : Prop :=
  (Cause.truncatedProgram.kind = .decodeFault ∧ Cause.truncatedProgram.code = 1) ∧
  (∀ n, (Cause.invalidSwapWidth n).kind = .decodeFault ∧ (Cause.invalidSwapWidth n).code = 2) ∧
  (∀ v, (Cause.invalidRegister v).kind = .decodeFault ∧ (Cause.invalidRegister v).code = 3) ∧
  (Cause.divideByZero.kind = .arithmeticFault ∧ Cause.divideByZero.code = 4) ∧
  (∀ a n, (Cause.memoryFault a n).kind = .memoryFault ∧ (Cause.memoryFault a n).code = 5) ∧
  (∀ op, (Cause.unknownOpcode op).kind = .controlFault ∧ (Cause.unknownOpcode op).code = 6) ∧
  (Cause.missingReturn.kind = .controlFault ∧ Cause.missingReturn.code = 7) ∧
  (Cause.budgetExhausted.kind = .budgetFault ∧ Cause.budgetExhausted.code = 8)

end Statements
end

