-- ==== Sys2Proof/Laws/Bytes.lean ====
section
/-! SUPPORT. The little-endian view: the number of a byte list, the bytes of a number, and each undoing the other
(spec/20_memory.md R51). -/

namespace Sys2Proof.Machine

@[simp] theorem toBytes_length (n v : Nat) : (toBytes n v).length = n := by
  induction n generalizing v with
  | zero => rfl
  | succ n ih => simp [toBytes, ih]

/-- Byte `j` of the number `v` is `(v div 256^j) mod 256`. -/
theorem toBytes_getElem (n v j : Nat) (h : j < (toBytes n v).length) :
    ((toBytes n v)[j]).toNat = v / 256 ^ j % 256 := by
  induction n generalizing v j with
  | zero => simp at h
  | succ n ih =>
    cases j with
    | zero => simp [toBytes]
    | succ j =>
      have hj : j < (toBytes n (v / 256)).length := by simpa [toBytes] using h
      simp only [toBytes, List.getElem_cons_succ]
      rw [ih _ _ hj, Nat.div_div_eq_div_mul, pow_succ, Nat.mul_comm 256]

/-- The bytes of a number, read back, are the number cut to the width. -/
theorem natOfBytes_toBytes (n v : Nat) : natOfBytes (toBytes n v) = v % 256 ^ n := by
  induction n generalizing v with
  | zero => simp [toBytes, natOfBytes, Nat.mod_one]
  | succ n ih =>
    have hb : (BitVec.ofNat 8 v).toNat = v % 256 := by simp
    rw [toBytes, natOfBytes, ih, hb, pow_succ, Nat.mul_comm (256 ^ n) 256, Nat.mod_mul]

/-- A list of `n` bytes is a number below `256^n`. -/
theorem natOfBytes_lt (bs : List Byte) : natOfBytes bs < 256 ^ bs.length := by
  induction bs with
  | nil => simp [natOfBytes]
  | cons b bs ih =>
    have hb : b.toNat < 256 := b.isLt
    simp only [natOfBytes, List.length_cons, pow_succ]
    omega

/-- The bytes of the number of a byte list are that list. -/
theorem toBytes_natOfBytes (bs : List Byte) : toBytes bs.length (natOfBytes bs) = bs := by
  induction bs with
  | nil => rfl
  | cons b bs ih =>
    have hb : b.toNat < 256 := b.isLt
    have h1 : BitVec.ofNat 8 (b.toNat + 256 * natOfBytes bs) = b := by
      apply BitVec.eq_of_toNat_eq
      rw [BitVec.toNat_ofNat]
      omega
    have h2 : (b.toNat + 256 * natOfBytes bs) / 256 = natOfBytes bs := by omega
    rw [List.length_cons, natOfBytes, toBytes, h1, h2, ih]

/-- The number of a byte list as the sum of its bytes at their weights. -/
theorem natOfBytes_eq_sum (bs : List Byte) :
    natOfBytes bs = ∑ j ∈ Finset.range bs.length, (bs.getD j 0#8).toNat * 256 ^ j := by
  induction bs with
  | nil => simp [natOfBytes]
  | cons b bs ih =>
    rw [natOfBytes, ih, List.length_cons, Finset.sum_range_succ', Finset.mul_sum, Nat.add_comm]
    congr 1
    · refine Finset.sum_congr rfl fun j _ => ?_
      rw [List.getD_cons_succ, pow_succ]; ring
    · simp

end Sys2Proof.Machine
end

