-- ==== Sys2Proof/Laws/Decode.lean ====
section
/-! SUPPORT. The bytes of a slot are read back as that slot, and a list with no eight bytes holds none
(spec/30_encoding.md R80, R81). -/

namespace Sys2Proof

theorem off_bytes (off : OffField) : off.extractLsb' 8 8 ++ off.extractLsb' 0 8 = off := by
  apply BitVec.eq_of_getLsbD_eq
  intro i hi
  simp only [BitVec.getLsbD_append, BitVec.getLsbD_extractLsb']
  simp only [Nat.reduceAdd] at hi
  interval_cases i <;> simp

theorem imm_bytes (imm : ImmField) :
    imm.extractLsb' 24 8 ++ imm.extractLsb' 16 8 ++ imm.extractLsb' 8 8 ++ imm.extractLsb' 0 8 = imm := by
  apply BitVec.eq_of_getLsbD_eq
  intro i hi
  simp only [BitVec.getLsbD_append, BitVec.getLsbD_extractLsb']
  simp only [Nat.reduceAdd] at hi
  interval_cases i <;> simp

theorem reg_byte_low (src dst : RegField) : (src ++ dst).extractLsb' 0 4 = dst := by
  apply BitVec.eq_of_getLsbD_eq
  intro i hi
  simp only [BitVec.getLsbD_append, BitVec.getLsbD_extractLsb']
  interval_cases i <;> simp

theorem reg_byte_high (src dst : RegField) : (src ++ dst).extractLsb' 4 4 = src := by
  apply BitVec.eq_of_getLsbD_eq
  intro i hi
  simp only [BitVec.getLsbD_append, BitVec.getLsbD_extractLsb']
  interval_cases i <;> simp

/-- A slot's bytes are read back as the slot, and what follows them is left over. -/
theorem takeSlot_bytes (f : Slot) (rest : List Byte) : takeSlot (f.bytes ++ rest) = some (f, rest) := by
  obtain ⟨op, d, r, off, imm⟩ := f
  simp only [Slot.bytes, List.cons_append, List.nil_append, takeSlot, Slot.ofBytes, off_bytes, imm_bytes, reg_byte_low,
    reg_byte_high]

/-- Fewer than eight bytes hold no slot. -/
theorem takeSlot_short {bytes : List Byte} (h : bytes.length < 8) : takeSlot bytes = none := by
  unfold takeSlot
  split
  · simp only [List.length_cons] at h; omega
  · rfl

/-- What a found slot says of the list: eight bytes and the rest, the first of them the opcode. -/
theorem takeSlot_some {bytes rest : List Byte} {f : Slot} (h : takeSlot bytes = some (f, rest)) :
    ∃ head, bytes = head ++ rest ∧ head.length = 8 ∧ head.head? = some f.opcode := by
  unfold takeSlot at h
  split at h
  · rename_i b0 b1 b2 b3 b4 b5 b6 b7 tail
    simp only [Option.some.injEq, Prod.mk.injEq] at h
    obtain ⟨rfl, rfl⟩ := h
    exact ⟨[b0, b1, b2, b3, b4, b5, b6, b7], rfl, rfl, rfl⟩
  · cases h

end Sys2Proof
end

