-- ==== Sys2Proof/Laws/State.lean ====
section
/-! SUPPORT. One lemma per field per state update, and per update for the register read and the byte read, all true by
unfolding and tagged for simp, so that no proof unfolds a record update. -/

namespace Sys2Proof.Machine

variable (s : State)

@[simp] theorem State.setReg_pc (r : Reg) (v : Word) : (s.setReg r v).pc = s.pc := rfl
@[simp] theorem State.setReg_regs (r : Reg) (v : Word) : (s.setReg r v).regs = s.regs.set r v := rfl
@[simp] theorem State.setReg_addressSpace (r : Reg) (v : Word) : (s.setReg r v).addressSpace = s.addressSpace := rfl
@[simp] theorem State.setReg_stack (r : Reg) (v : Word) : (s.setReg r v).stack = s.stack := rfl
@[simp] theorem State.setReg_status (r : Reg) (v : Word) : (s.setReg r v).status = s.status := rfl
@[simp] theorem State.setReg_icount (r : Reg) (v : Word) : (s.setReg r v).icount = s.icount := rfl
@[simp] theorem State.setReg_events (r : Reg) (v : Word) : (s.setReg r v).events = s.events := rfl
@[simp] theorem State.setReg_params (r : Reg) (v : Word) : (s.setReg r v).params = s.params := rfl
@[simp] theorem State.setReg_program (r : Reg) (v : Word) : (s.setReg r v).program = s.program := rfl
@[simp] theorem State.setReg_helpers (r : Reg) (v : Word) : (s.setReg r v).helpers = s.helpers := rfl
@[simp] theorem State.setReg_cells (r : Reg) (v : Word) (R : Region) : (s.setReg r v).cells R = s.cells R := by cases R <;> rfl
@[simp] theorem State.setReg_byteAt (r : Reg) (v : Word) (R : Region) (k : Nat) : (s.setReg r v).byteAt R k = s.byteAt R k := by
  cases R <;> rfl

@[simp] theorem State.advance_pc (n : Int) : (s.advance n).pc = s.pc + n := rfl
@[simp] theorem State.advance_regs (n : Int) : (s.advance n).regs = s.regs := rfl
@[simp] theorem State.advance_addressSpace (n : Int) : (s.advance n).addressSpace = s.addressSpace := rfl
@[simp] theorem State.advance_stack (n : Int) : (s.advance n).stack = s.stack := rfl
@[simp] theorem State.advance_status (n : Int) : (s.advance n).status = s.status := rfl
@[simp] theorem State.advance_icount (n : Int) : (s.advance n).icount = s.icount := rfl
@[simp] theorem State.advance_events (n : Int) : (s.advance n).events = s.events := rfl
@[simp] theorem State.advance_params (n : Int) : (s.advance n).params = s.params := rfl
@[simp] theorem State.advance_program (n : Int) : (s.advance n).program = s.program := rfl
@[simp] theorem State.advance_helpers (n : Int) : (s.advance n).helpers = s.helpers := rfl
@[simp] theorem State.advance_reg (n : Int) (q : Reg) : (s.advance n).reg q = s.reg q := rfl
@[simp] theorem State.advance_cells (n : Int) (R : Region) : (s.advance n).cells R = s.cells R := by cases R <;> rfl
@[simp] theorem State.advance_byteAt (n : Int) (R : Region) (k : Nat) : (s.advance n).byteAt R k = s.byteAt R k := by
  cases R <;> rfl

@[simp] theorem State.jump_pc (off : OffField) : (s.jump off).pc = s.pc + 1 + signedOff off := rfl
@[simp] theorem State.jump_regs (off : OffField) : (s.jump off).regs = s.regs := rfl
@[simp] theorem State.jump_addressSpace (off : OffField) : (s.jump off).addressSpace = s.addressSpace := rfl
@[simp] theorem State.jump_stack (off : OffField) : (s.jump off).stack = s.stack := rfl
@[simp] theorem State.jump_status (off : OffField) : (s.jump off).status = s.status := rfl
@[simp] theorem State.jump_icount (off : OffField) : (s.jump off).icount = s.icount := rfl
@[simp] theorem State.jump_events (off : OffField) : (s.jump off).events = s.events := rfl
@[simp] theorem State.jump_params (off : OffField) : (s.jump off).params = s.params := rfl
@[simp] theorem State.jump_program (off : OffField) : (s.jump off).program = s.program := rfl
@[simp] theorem State.jump_helpers (off : OffField) : (s.jump off).helpers = s.helpers := rfl
@[simp] theorem State.jump_reg (off : OffField) (q : Reg) : (s.jump off).reg q = s.reg q := rfl
@[simp] theorem State.jump_cells (off : OffField) (R : Region) : (s.jump off).cells R = s.cells R := by cases R <;> rfl
@[simp] theorem State.jump_byteAt (off : OffField) (R : Region) (k : Nat) : (s.jump off).byteAt R k = s.byteAt R k := by
  cases R <;> rfl

@[simp] theorem State.emit_pc (e : Event) : (s.emit e).pc = s.pc := rfl
@[simp] theorem State.emit_regs (e : Event) : (s.emit e).regs = s.regs := rfl
@[simp] theorem State.emit_addressSpace (e : Event) : (s.emit e).addressSpace = s.addressSpace := rfl
@[simp] theorem State.emit_stack (e : Event) : (s.emit e).stack = s.stack := rfl
@[simp] theorem State.emit_status (e : Event) : (s.emit e).status = s.status := rfl
@[simp] theorem State.emit_icount (e : Event) : (s.emit e).icount = s.icount := rfl
@[simp] theorem State.emit_events (e : Event) : (s.emit e).events = s.events ++ [e] := rfl
@[simp] theorem State.emit_params (e : Event) : (s.emit e).params = s.params := rfl
@[simp] theorem State.emit_program (e : Event) : (s.emit e).program = s.program := rfl
@[simp] theorem State.emit_helpers (e : Event) : (s.emit e).helpers = s.helpers := rfl
@[simp] theorem State.emit_reg (e : Event) (q : Reg) : (s.emit e).reg q = s.reg q := rfl
@[simp] theorem State.emit_cells (e : Event) (R : Region) : (s.emit e).cells R = s.cells R := by cases R <;> rfl
@[simp] theorem State.emit_byteAt (e : Event) (R : Region) (k : Nat) : (s.emit e).byteAt R k = s.byteAt R k := by
  cases R <;> rfl

@[simp] theorem State.raise_pc (c : Cause) : (s.raise c).pc = s.pc := rfl
@[simp] theorem State.raise_regs (c : Cause) : (s.raise c).regs = s.regs := rfl
@[simp] theorem State.raise_addressSpace (c : Cause) : (s.raise c).addressSpace = s.addressSpace := rfl
@[simp] theorem State.raise_stack (c : Cause) : (s.raise c).stack = s.stack := rfl
@[simp] theorem State.raise_status (c : Cause) : (s.raise c).status = .fault c := rfl
@[simp] theorem State.raise_icount (c : Cause) : (s.raise c).icount = s.icount := rfl
@[simp] theorem State.raise_events (c : Cause) : (s.raise c).events = s.events := rfl
@[simp] theorem State.raise_params (c : Cause) : (s.raise c).params = s.params := rfl
@[simp] theorem State.raise_program (c : Cause) : (s.raise c).program = s.program := rfl
@[simp] theorem State.raise_helpers (c : Cause) : (s.raise c).helpers = s.helpers := rfl
@[simp] theorem State.raise_reg (c : Cause) (q : Reg) : (s.raise c).reg q = s.reg q := rfl
@[simp] theorem State.raise_cells (c : Cause) (R : Region) : (s.raise c).cells R = s.cells R := by cases R <;> rfl
@[simp] theorem State.raise_byteAt (c : Cause) (R : Region) (k : Nat) : (s.raise c).byteAt R k = s.byteAt R k := by
  cases R <;> rfl

@[simp] theorem State.finish_pc : (s.finish).pc = s.pc := rfl
@[simp] theorem State.finish_regs : (s.finish).regs = s.regs := rfl
@[simp] theorem State.finish_addressSpace : (s.finish).addressSpace = s.addressSpace := rfl
@[simp] theorem State.finish_stack : (s.finish).stack = s.stack := rfl
@[simp] theorem State.finish_status : (s.finish).status = .returned (s.reg .r0) := rfl
@[simp] theorem State.finish_icount : (s.finish).icount = s.icount := rfl
@[simp] theorem State.finish_events : (s.finish).events = s.events := rfl
@[simp] theorem State.finish_params : (s.finish).params = s.params := rfl
@[simp] theorem State.finish_program : (s.finish).program = s.program := rfl
@[simp] theorem State.finish_helpers : (s.finish).helpers = s.helpers := rfl
@[simp] theorem State.finish_reg (q : Reg) : (s.finish).reg q = s.reg q := rfl
@[simp] theorem State.finish_cells (R : Region) : (s.finish).cells R = s.cells R := by cases R <;> rfl
@[simp] theorem State.finish_byteAt (R : Region) (k : Nat) : (s.finish).byteAt R k = s.byteAt R k := by
  cases R <;> rfl

@[simp] theorem State.setCells_pc (R : Region) (m : Memory) : (s.setCells R m).pc = s.pc := by cases R <;> rfl
@[simp] theorem State.setCells_regs (R : Region) (m : Memory) : (s.setCells R m).regs = s.regs := by cases R <;> rfl
@[simp] theorem State.setCells_status (R : Region) (m : Memory) : (s.setCells R m).status = s.status := by cases R <;> rfl
@[simp] theorem State.setCells_icount (R : Region) (m : Memory) : (s.setCells R m).icount = s.icount := by cases R <;> rfl
@[simp] theorem State.setCells_events (R : Region) (m : Memory) : (s.setCells R m).events = s.events := by cases R <;> rfl
@[simp] theorem State.setCells_params (R : Region) (m : Memory) : (s.setCells R m).params = s.params := by cases R <;> rfl
@[simp] theorem State.setCells_program (R : Region) (m : Memory) : (s.setCells R m).program = s.program := by cases R <;> rfl
@[simp] theorem State.setCells_helpers (R : Region) (m : Memory) : (s.setCells R m).helpers = s.helpers := by cases R <;> rfl
@[simp] theorem State.setCells_reg (R : Region) (m : Memory) (q : Reg) : (s.setCells R m).reg q = s.reg q := by cases R <;> rfl
@[simp] theorem State.setCells_cells (R : Region) (m : Memory) : (s.setCells R m).cells R = m := by cases R <;> rfl
theorem State.setCells_cells_other (R Q : Region) (m : Memory) (h : Q ≠ R) : (s.setCells R m).cells Q = s.cells Q := by
  cases R <;> cases Q <;> first | rfl | exact absurd rfl h

@[simp] theorem State.setByte_pc (R : Region) (k : Nat) (b : Byte) : (s.setByte R k b).pc = s.pc := by simp [State.setByte]
@[simp] theorem State.setByte_regs (R : Region) (k : Nat) (b : Byte) : (s.setByte R k b).regs = s.regs := by simp [State.setByte]
@[simp] theorem State.setByte_status (R : Region) (k : Nat) (b : Byte) : (s.setByte R k b).status = s.status := by simp [State.setByte]
@[simp] theorem State.setByte_icount (R : Region) (k : Nat) (b : Byte) : (s.setByte R k b).icount = s.icount := by simp [State.setByte]
@[simp] theorem State.setByte_events (R : Region) (k : Nat) (b : Byte) : (s.setByte R k b).events = s.events := by simp [State.setByte]
@[simp] theorem State.setByte_params (R : Region) (k : Nat) (b : Byte) : (s.setByte R k b).params = s.params := by simp [State.setByte]
@[simp] theorem State.setByte_program (R : Region) (k : Nat) (b : Byte) : (s.setByte R k b).program = s.program := by simp [State.setByte]
@[simp] theorem State.setByte_helpers (R : Region) (k : Nat) (b : Byte) : (s.setByte R k b).helpers = s.helpers := by simp [State.setByte]
@[simp] theorem State.setByte_reg (R : Region) (k : Nat) (b : Byte) (q : Reg) : (s.setByte R k b).reg q = s.reg q := by simp [State.setByte]

@[simp] theorem State.setBytes_pc (s : State) (R : Region) (k : Nat) (bs : List Byte) : (s.setBytes R k bs).pc = s.pc := by
  induction bs generalizing s k with
  | nil => rfl
  | cons b bs ih => simp [State.setBytes, ih]
@[simp] theorem State.setBytes_regs (s : State) (R : Region) (k : Nat) (bs : List Byte) : (s.setBytes R k bs).regs = s.regs := by
  induction bs generalizing s k with
  | nil => rfl
  | cons b bs ih => simp [State.setBytes, ih]
@[simp] theorem State.setBytes_status (s : State) (R : Region) (k : Nat) (bs : List Byte) : (s.setBytes R k bs).status = s.status := by
  induction bs generalizing s k with
  | nil => rfl
  | cons b bs ih => simp [State.setBytes, ih]
@[simp] theorem State.setBytes_icount (s : State) (R : Region) (k : Nat) (bs : List Byte) : (s.setBytes R k bs).icount = s.icount := by
  induction bs generalizing s k with
  | nil => rfl
  | cons b bs ih => simp [State.setBytes, ih]
@[simp] theorem State.setBytes_events (s : State) (R : Region) (k : Nat) (bs : List Byte) : (s.setBytes R k bs).events = s.events := by
  induction bs generalizing s k with
  | nil => rfl
  | cons b bs ih => simp [State.setBytes, ih]
@[simp] theorem State.setBytes_params (s : State) (R : Region) (k : Nat) (bs : List Byte) : (s.setBytes R k bs).params = s.params := by
  induction bs generalizing s k with
  | nil => rfl
  | cons b bs ih => simp [State.setBytes, ih]
@[simp] theorem State.setBytes_program (s : State) (R : Region) (k : Nat) (bs : List Byte) : (s.setBytes R k bs).program = s.program := by
  induction bs generalizing s k with
  | nil => rfl
  | cons b bs ih => simp [State.setBytes, ih]
@[simp] theorem State.setBytes_helpers (s : State) (R : Region) (k : Nat) (bs : List Byte) : (s.setBytes R k bs).helpers = s.helpers := by
  induction bs generalizing s k with
  | nil => rfl
  | cons b bs ih => simp [State.setBytes, ih]
@[simp] theorem State.setBytes_reg (s : State) (R : Region) (k : Nat) (bs : List Byte) (q : Reg) :
    (s.setBytes R k bs).reg q = s.reg q := by
  induction bs generalizing s k with
  | nil => rfl
  | cons b bs ih => simp [State.setBytes, ih]

/-- The register file reads back what was written, and every other register is as before. -/
theorem RegFile.get_set (f : RegFile) (r q : Reg) (v : Word) : (f.set r v).get q = if q = r then v else f.get q := by
  cases r <;> cases q <;> rfl

@[simp] theorem State.setReg_reg_same (r : Reg) (v : Word) : (s.setReg r v).reg r = v := by
  simp [State.setReg, State.reg, RegFile.get_set]

theorem State.setReg_reg (r q : Reg) (v : Word) : (s.setReg r v).reg q = if q = r then v else s.reg q := by
  simp [State.setReg, State.reg, RegFile.get_set]

@[simp] theorem State.counted_pc : s.counted.pc = s.pc := by unfold State.counted; split <;> rfl
@[simp] theorem State.counted_regs : s.counted.regs = s.regs := by unfold State.counted; split <;> rfl
@[simp] theorem State.counted_addressSpace : s.counted.addressSpace = s.addressSpace := by unfold State.counted; split <;> rfl
@[simp] theorem State.counted_stack : s.counted.stack = s.stack := by unfold State.counted; split <;> rfl
@[simp] theorem State.counted_status : s.counted.status = s.status := by unfold State.counted; split <;> rfl
@[simp] theorem State.counted_events : s.counted.events = s.events := by unfold State.counted; split <;> rfl
@[simp] theorem State.counted_params : s.counted.params = s.params := by unfold State.counted; split <;> rfl
@[simp] theorem State.counted_program : s.counted.program = s.program := by unfold State.counted; split <;> rfl
@[simp] theorem State.counted_helpers : s.counted.helpers = s.helpers := by unfold State.counted; split <;> rfl
@[simp] theorem State.counted_reg (q : Reg) : s.counted.reg q = s.reg q := by unfold State.counted; split <;> rfl
@[simp] theorem State.counted_cells (R : Region) : s.counted.cells R = s.cells R := by unfold State.counted; split <;> rfl
@[simp] theorem State.counted_byteAt (R : Region) (k : Nat) : s.counted.byteAt R k = s.byteAt R k := by
  simp [State.byteAt]

/-- The counter after a step that did not raise, with a numeric budget. -/
theorem State.counted_icount_budget (b : Nat) (hb : s.params.budget = some b) (hs : ∀ c, s.status ≠ .fault c) :
    s.counted.icount = s.icount + 1 := by
  unfold State.counted
  rw [hb]
  split
  · rename_i c h; exact absurd h (hs c)
  · contradiction
  · rfl

/-- Without a budget the counter stays. -/
theorem State.counted_no_budget (hb : s.params.budget = none) : s.counted = s := by
  unfold State.counted
  rw [hb]
  split
  · rfl
  · rfl
  · contradiction

/-- A faulted state is not counted. -/
theorem State.counted_raise (c : Cause) : (s.raise c).counted = s.raise c := rfl

end Sys2Proof.Machine
end

