-- ==== Sys2Proof/Laws/Memory.lean ====
section
/-! SUPPORT. The laws of the regions: a read after a write, the canonical form kept by every write, and the reset
memory in it (spec/20_memory.md R53, R58, R59, R64). -/

namespace Sys2Proof.Machine

theorem Memory.lookup_insert (m : Memory) (k j : Nat) (b : Byte) :
    Memory.lookup (Memory.insert m k b) j = if j = k then some b else Memory.lookup m j := by
  induction m with
  | nil =>
    by_cases h : j = k
    · simp [Memory.insert, Memory.lookup, h]
    · simp [Memory.insert, Memory.lookup, h, Ne.symm h]
  | cons c m ih =>
    unfold Memory.insert
    split
    · by_cases h : j = k
      · simp [Memory.lookup, h]
      · simp [Memory.lookup, h, Ne.symm h]
    · split
      · rename_i _ hk
        by_cases h : j = k
        · simp [Memory.lookup, h]
        · simp [Memory.lookup, h, Ne.symm h, ← hk]
      · rename_i _ hk
        by_cases h : j = k
        · subst h; simp [Memory.lookup, ih, Ne.symm hk]
        · simp [Memory.lookup, ih, h]

theorem Memory.lookup_erase (m : Memory) (k j : Nat) :
    Memory.lookup (Memory.erase m k) j = if j = k then none else Memory.lookup m j := by
  induction m with
  | nil => simp [Memory.erase, Memory.lookup]
  | cons c m ih =>
    by_cases hc : c.1 = k
    · by_cases h : j = k
      · rw [Memory.erase, if_pos hc, ih, if_pos h, if_pos h]
      · have : c.1 ≠ j := fun e => h (e.symm.trans hc)
        simp [Memory.erase, hc, ih, h, Memory.lookup, Ne.symm h]
    · by_cases h : j = k
      · subst h; simp [Memory.erase, hc, ih, Memory.lookup]
      · simp [Memory.erase, hc, ih, h, Memory.lookup]

/-- Reading a byte after a write of one byte of a region. -/
theorem State.byteAt_setByte (s : State) (R Q : Region) (k j : Nat) (b : Byte) :
    (s.setByte R k b).byteAt Q j = if Q = R ∧ j = k then b else s.byteAt Q j := by
  by_cases hQ : Q = R
  · subst hQ
    simp only [State.byteAt, State.setByte, State.setCells_cells, Memory.write, true_and]
    by_cases hu : Q.unlisted = some b
    · simp only [hu, if_true, Memory.lookup_erase]
      by_cases h : j = k
      · simp [h, Region.unwritten, hu]
      · simp [h]
    · simp only [hu, if_false, Memory.lookup_insert]
      by_cases h : j = k
      · simp [h]
      · simp [h]
  · simp [State.byteAt, State.setByte, State.setCells_cells_other _ _ _ _ hQ, hQ]

/-- Reading a byte after a write of a run of bytes. -/
theorem State.byteAt_setBytes (s : State) (R Q : Region) (k j : Nat) (bs : List Byte) :
    (s.setBytes R k bs).byteAt Q j =
      if Q = R ∧ k ≤ j ∧ j < k + bs.length then bs.getD (j - k) 0#8 else s.byteAt Q j := by
  induction bs generalizing s k with
  | nil =>
    have : ¬ (Q = R ∧ k ≤ j ∧ j < k + ([] : List Byte).length) := by
      rintro ⟨_, h1, h2⟩
      rw [List.length_nil] at h2
      omega
    rw [if_neg this]; rfl
  | cons b bs ih =>
    rw [State.setBytes, ih, State.byteAt_setByte]
    by_cases hQ : Q = R
    · rcases Nat.lt_trichotomy j k with h | h | h
      · have h1 : ¬ (Q = R ∧ k + 1 ≤ j ∧ j < k + 1 + bs.length) := by omega
        have h2 : ¬ (Q = R ∧ k ≤ j ∧ j < k + (b :: bs).length) := by omega
        have h3 : ¬ (Q = R ∧ j = k) := by omega
        rw [if_neg h1, if_neg h2, if_neg h3]
      · subst h
        have h1 : ¬ (Q = R ∧ j + 1 ≤ j ∧ j < j + 1 + bs.length) := by omega
        rw [if_neg h1, if_pos ⟨hQ, rfl⟩, if_pos ⟨hQ, le_refl _, by simp⟩]
        simp
      · have h3 : ¬ (Q = R ∧ j = k) := by omega
        rw [if_neg h3]
        by_cases h4 : j < k + 1 + bs.length
        · have h5 : j < k + (b :: bs).length := by simp only [List.length_cons]; omega
          rw [if_pos ⟨hQ, by omega, h4⟩, if_pos ⟨hQ, by omega, h5⟩]
          obtain ⟨i, rfl⟩ : ∃ i, j = k + 1 + i := ⟨j - (k + 1), by omega⟩
          have e1 : k + 1 + i - (k + 1) = i := by omega
          have e2 : k + 1 + i - k = i + 1 := by omega
          rw [e1, e2, List.getD_cons_succ]
        · have h1 : ¬ (Q = R ∧ k + 1 ≤ j ∧ j < k + 1 + bs.length) := by omega
          have h2 : ¬ (Q = R ∧ k ≤ j ∧ j < k + (b :: bs).length) := by simp only [List.length_cons]; omega
          rw [if_neg h1, if_neg h2]
    · have h1 : ∀ p : Prop, ¬ (Q = R ∧ p) := fun _ h => hQ h.1
      rw [if_neg (h1 _), if_neg (h1 _), if_neg (h1 _)]

@[simp] theorem State.bytesAt_length (s : State) (R : Region) (k n : Nat) : (s.bytesAt R k n).length = n := by
  induction n generalizing k with
  | zero => rfl
  | succ n ih => simp [State.bytesAt, ih]

theorem State.bytesAt_getD (s : State) (R : Region) (k n j : Nat) (h : j < n) :
    (s.bytesAt R k n).getD j 0#8 = s.byteAt R (k + j) := by
  induction n generalizing k j with
  | zero => omega
  | succ n ih =>
    cases j with
    | zero => rfl
    | succ j =>
      rw [State.bytesAt, List.getD_cons_succ, ih _ _ (by omega)]
      congr 1; omega

/-- The number read from a region: the sum of its bytes at their weights (R51, R58). -/
theorem State.natOfBytes_bytesAt (s : State) (R : Region) (k n : Nat) :
    natOfBytes (s.bytesAt R k n) = ∑ j ∈ Finset.range n, (s.byteAt R (k + j)).toNat * 256 ^ j := by
  rw [natOfBytes_eq_sum, State.bytesAt_length]
  exact Finset.sum_congr rfl fun j hj => by rw [State.bytesAt_getD _ _ _ _ _ (Finset.mem_range.1 hj)]

/-- Equal bytes give equal reads. -/
theorem State.bytesAt_congr (s t : State) (R : Region) (k n : Nat)
    (h : ∀ j, k ≤ j → j < k + n → s.byteAt R j = t.byteAt R j) : s.bytesAt R k n = t.bytesAt R k n := by
  induction n generalizing k with
  | zero => rfl
  | succ n ih =>
    rw [State.bytesAt, State.bytesAt, h k (le_refl _) (by omega), ih (k + 1) fun j h1 h2 => h j (by omega) (by omega)]

/-- The bytes just written are read back. -/
theorem State.bytesAt_setBytes (s : State) (R : Region) (k : Nat) (bs : List Byte) :
    (s.setBytes R k bs).bytesAt R k bs.length = bs := by
  apply List.ext_getElem (by simp)
  intro j h1 h2
  have h := State.bytesAt_getD (s.setBytes R k bs) R k bs.length j h2
  rw [List.getD_eq_getElem _ _ h1, State.byteAt_setBytes, if_pos ⟨rfl, by omega, by omega⟩, Nat.add_sub_cancel_left,
    List.getD_eq_getElem _ _ h2] at h
  exact h

/-! ### The canonical form -/

theorem Memory.mem_erase (m : Memory) (k : Nat) (c : Host.Cell) (h : c ∈ Memory.erase m k) : c ∈ m := by
  induction m with
  | nil => exact h
  | cons d m ih =>
    rw [Memory.erase] at h
    split at h
    · exact List.mem_cons_of_mem _ (ih h)
    · rcases List.mem_cons.1 h with h | h
      · exact h ▸ List.mem_cons_self
      · exact List.mem_cons_of_mem _ (ih h)

theorem Memory.mem_insert (m : Memory) (k : Nat) (b : Byte) (c : Host.Cell) (h : c ∈ Memory.insert m k b) :
    c = (k, b) ∨ c ∈ m := by
  induction m with
  | nil => exact .inl (by simpa [Memory.insert] using h)
  | cons d m ih =>
    rw [Memory.insert] at h
    split at h
    · exact (List.mem_cons.1 h).imp id id
    · split at h
      · exact (List.mem_cons.1 h).imp id fun h => List.mem_cons_of_mem _ h
      · rcases List.mem_cons.1 h with h | h
        · exact .inr (h ▸ List.mem_cons_self)
        · exact (ih h).imp id fun h => List.mem_cons_of_mem _ h

theorem Memory.erase_sorted {m : Memory} (k : Nat) (h : m.Pairwise fun c d => c.1 < d.1) :
    (Memory.erase m k).Pairwise fun c d => c.1 < d.1 := by
  induction m with
  | nil => exact h
  | cons d m ih =>
    rw [Memory.erase]
    obtain ⟨h1, h2⟩ := List.pairwise_cons.1 h
    split
    · exact ih h2
    · exact List.pairwise_cons.2 ⟨fun c hc => h1 c (Memory.mem_erase _ _ _ hc), ih h2⟩

theorem Memory.insert_sorted {m : Memory} (k : Nat) (b : Byte) (h : m.Pairwise fun c d => c.1 < d.1) :
    (Memory.insert m k b).Pairwise fun c d => c.1 < d.1 := by
  induction m with
  | nil => simp [Memory.insert]
  | cons d m ih =>
    obtain ⟨h1, h2⟩ := List.pairwise_cons.1 h
    rw [Memory.insert]
    split
    · rename_i hd
      refine List.pairwise_cons.2 ⟨fun c hc => ?_, h⟩
      rcases List.mem_cons.1 hc with hc | hc
      · exact hc ▸ hd
      · exact lt_trans hd (h1 c hc)
    · split
      · rename_i _ hd
        exact List.pairwise_cons.2 ⟨fun c hc => hd ▸ h1 c hc, h2⟩
      · rename_i hd hd'
        refine List.pairwise_cons.2 ⟨fun c hc => ?_, ih h2⟩
        rcases Memory.mem_insert _ _ _ _ hc with hc | hc
        · rw [hc]; show d.1 < k; omega
        · exact h1 c hc

theorem Memory.erase_wf {u : Option Byte} {size : Nat} {m : Memory} (k : Nat) (h : Memory.wf u size m) :
    Memory.wf u size (Memory.erase m k) :=
  ⟨Memory.erase_sorted k h.1, fun c hc => h.2 c (Memory.mem_erase _ _ _ hc)⟩

theorem Memory.insert_wf {u : Option Byte} {size : Nat} {m : Memory} {k : Nat} {b : Byte} (hk : k < size)
    (hb : u ≠ some b) (h : Memory.wf u size m) : Memory.wf u size (Memory.insert m k b) := by
  refine ⟨Memory.insert_sorted k b h.1, fun c hc => ?_⟩
  rcases Memory.mem_insert _ _ _ _ hc with hc | hc
  · rw [hc]; exact ⟨hk, hb⟩
  · exact h.2 c hc

theorem Memory.write_wf {u : Option Byte} {size : Nat} {m : Memory} {k : Nat} (b : Byte) (hk : k < size)
    (h : Memory.wf u size m) : Memory.wf u size (Memory.write u m k b) := by
  unfold Memory.write
  split
  · exact Memory.erase_wf k h
  · rename_i hb; exact Memory.insert_wf hk hb h

/-- Both regions of a state are in canonical form. -/
def State.cellsWf (s : State) : Prop := ∀ R : Region, Memory.wf R.unlisted (R.size s.params) (s.cells R)

/-- A write of one byte inside its region keeps the canonical form. -/
theorem State.setByte_cellsWf {s : State} {R : Region} {k : Nat} (b : Byte) (hk : k < R.size s.params)
    (h : s.cellsWf) : (s.setByte R k b).cellsWf := by
  intro Q
  by_cases hQ : Q = R
  · subst hQ
    simpa [State.setByte] using Memory.write_wf b hk (h Q)
  · simpa [State.setByte, State.setCells_cells_other _ _ _ _ hQ] using h Q

/-- A write of a run of bytes inside its region keeps the canonical form. -/
theorem State.setBytes_cellsWf {s : State} {R : Region} {k : Nat} {bs : List Byte}
    (hk : k + bs.length ≤ R.size s.params) (h : s.cellsWf) : (s.setBytes R k bs).cellsWf := by
  induction bs generalizing s k with
  | nil => exact h
  | cons b bs ih =>
    rw [List.length_cons] at hk
    exact ih (by rw [State.setByte_params]; omega) (State.setByte_cellsWf b (by omega) h)

/-- The memory after reset is in canonical form. -/
theorem State.reset_cellsWf : State.reset.cellsWf := by
  intro R; cases R <;> decide

end Sys2Proof.Machine
end

