-- ==== Sys2Proof/Laws/Ops.lean ====
section
/-! SUPPORT. For each shared operation, once, everything it can do; and from these, once, everything the execution of an
instruction can do (`exec_effect`). -/

namespace Sys2Proof.Machine

/-! ### Register fields -/

@[simp] theorem regOfField_field (r : Reg) : regOfField r.field = some r := by cases r <;> rfl

theorem field_inj {r q : Reg} (h : r.field = q.field) : r = q := by
  have := congrArg regOfField h
  simpa using this

theorem regOfField_eq_some {f : RegField} {r : Reg} : regOfField f = some r ↔ f = r.field := by
  constructor
  · intro h
    revert h
    revert f
    cases r <;> decide
  · rintro rfl; simp

theorem regOfField_eq_none {f : RegField} : regOfField f = none ↔ 10 < f.toNat := by
  revert f
  decide

@[simp] theorem withReg_field (r : Reg) (s : State) (k : Reg → Result) : withReg r.field s k = k r := by
  simp [withReg]

theorem withReg_invalid {f : RegField} (h : 10 < f.toNat) (s : State) (k : Reg → Result) :
    withReg f s k = .next (s.raise (.invalidRegister f)) := by
  simp [withReg, regOfField_eq_none.2 h, raise]

/-- A register field names a register or raises. -/
theorem withReg_cases (f : RegField) (s : State) (k : Reg → Result) :
    (∃ r, f = r.field ∧ withReg f s k = k r) ∨
      (10 < f.toNat ∧ withReg f s k = .next (s.raise (.invalidRegister f))) := by
  cases h : regOfField f with
  | some r => exact .inl ⟨r, regOfField_eq_some.1 h, by simp [withReg, h]⟩
  | none => exact .inr ⟨regOfField_eq_none.1 h, withReg_invalid (regOfField_eq_none.1 h) s k⟩

@[simp] theorem withRegs_field (d r : Reg) (s : State) (k : Reg → Reg → Result) :
    withRegs d.field r.field s k = k d r := by simp [withRegs]

theorem withRegs_invalid_dst {f : RegField} (h : 10 < f.toNat) (g : RegField) (s : State) (k : Reg → Reg → Result) :
    withRegs f g s k = .next (s.raise (.invalidRegister f)) := withReg_invalid h s _

theorem withRegs_invalid_src (d : Reg) {g : RegField} (h : 10 < g.toNat) (s : State) (k : Reg → Reg → Result) :
    withRegs d.field g s k = .next (s.raise (.invalidRegister g)) := by
  rw [withRegs, withReg_field, withReg_invalid h]

/-- Two register fields name registers, or the step raises for the first that does not. -/
theorem withRegs_cases (f g : RegField) (s : State) (k : Reg → Reg → Result) :
    (∃ d r, f = d.field ∧ g = r.field ∧ withRegs f g s k = k d r) ∨
      (∃ c, withRegs f g s k = .next (s.raise c)) := by
  rcases withReg_cases f s (fun d => withReg g s fun r => k d r) with ⟨d, rfl, h⟩ | ⟨_, h⟩
  · rcases withReg_cases g s (k d) with ⟨r, rfl, h'⟩ | ⟨_, h'⟩
    · exact .inl ⟨d, r, rfl, rfl, by rw [withRegs, h, h']⟩
    · exact .inr ⟨_, by rw [withRegs, h, h']⟩
  · exact .inr ⟨_, h⟩

/-! ### Translation and data accesses -/

theorem Region.holds_iff (p : Params) (R : Region) (a : Int) (n : Nat) :
    R.holds p a n = true ↔ (R.base p : Int) ≤ a ∧ a + n ≤ (R.base p : Int) + R.size p := by
  simp [Region.holds]

/-- A translated access: the region is in reach, the address is the region's base plus the offset, and all the bytes are
inside the region. -/
theorem translateAccess_some {p : Params} {reach : List Region} {a : Int} {n : Nat} {R : Region} {k : Nat}
    (h : translateAccess p reach a n = some (R, k)) : R ∈ reach ∧ a = (R.base p : Int) + k ∧ k + n ≤ R.size p := by
  induction reach with
  | nil => simp [translateAccess] at h
  | cons Q rest ih =>
    rw [translateAccess] at h
    split at h
    · rename_i hQ
      obtain ⟨h1, h2⟩ := (Region.holds_iff p Q a n).1 hQ
      obtain ⟨rfl, rfl⟩ := by simpa using h
      exact ⟨List.mem_cons_self, by omega, by omega⟩
    · obtain ⟨h1, h2⟩ := ih h
      exact ⟨List.mem_cons_of_mem _ h1, h2⟩

/-- A failed translation: no region in reach holds the access. -/
theorem translateAccess_none {p : Params} {reach : List Region} {a : Int} {n : Nat} :
    translateAccess p reach a n = none ↔ ∀ R ∈ reach, R.holds p a n = false := by
  induction reach with
  | nil => simp [translateAccess]
  | cons Q rest ih =>
    rw [translateAccess]
    split
    · rename_i h; simp [h]
    · rename_i h; rw [ih]; simp [h]

theorem memRead_some {s : State} {reach : List Region} {a : Int} {n : Nat} {R : Region} {k : Nat}
    (h : translateAccess s.params reach a n = some (R, k)) :
    memRead s reach a n = .ok (natOfBytes (s.bytesAt R k n)) := by simp [memRead, h]

theorem memRead_none {s : State} {reach : List Region} {a : Int} {n : Nat}
    (h : translateAccess s.params reach a n = none) : memRead s reach a n = .error (.memoryFault a n) := by
  simp [memRead, h]

theorem memWrite_some {s : State} {a : Int} {n : Nat} {v : Word} {R : Region} {k : Nat}
    (h : translateAccess s.params reachBoth a n = some (R, k)) :
    memWrite s a n v = .ok (s.setBytes R k (toBytes n v.toNat)) := by simp [memWrite, h]

theorem memWrite_none {s : State} {a : Int} {n : Nat} {v : Word}
    (h : translateAccess s.params reachBoth a n = none) : memWrite s a n v = .error (.memoryFault a n) := by
  simp [memWrite, h]

/-- A load writes its register and goes on, or raises the memory fault. -/
theorem loadInto_cases (d : Reg) (reach : List Region) (a : Int) (n : Nat) (s : State) :
    (∃ R k, translateAccess s.params reach a n = some (R, k) ∧
      loadInto d reach a n s = .next ((s.setReg d (BitVec.ofNat 64 (natOfBytes (s.bytesAt R k n)))).advance 1)) ∨
      (translateAccess s.params reach a n = none ∧ loadInto d reach a n s = .next (s.raise (.memoryFault a n))) := by
  cases h : translateAccess s.params reach a n with
  | none => exact .inr ⟨rfl, by simp [loadInto, memRead_none h, raise]⟩
  | some w => exact .inl ⟨w.1, w.2, rfl, by simp [loadInto, memRead_some (R := w.1) (k := w.2) h]⟩

/-- A store writes its bytes and goes on, or raises the memory fault. -/
theorem storeAt_cases (a : Int) (n : Nat) (v : Word) (s : State) :
    (∃ R k, translateAccess s.params reachBoth a n = some (R, k) ∧
      storeAt a n v s = .next ((s.setBytes R k (toBytes n v.toNat)).advance 1)) ∨
      (translateAccess s.params reachBoth a n = none ∧ storeAt a n v s = .next (s.raise (.memoryFault a n))) := by
  cases h : translateAccess s.params reachBoth a n with
  | none => exact .inr ⟨rfl, by simp [storeAt, memWrite_none h, raise]⟩
  | some w => exact .inl ⟨w.1, w.2, rfl, by simp [storeAt, memWrite_some (R := w.1) (k := w.2) h]⟩

/-- A store window lies inside its region. -/
theorem storeWindow_some {i : Instr} {s : State} {R : Region} {k n : Nat} (h : storeWindow i s = some (R, k, n)) :
    k + n ≤ R.size s.params := by
  unfold storeWindow at h
  split at h
  · cases h
  · split at h
    · cases h
    · split at h
      · obtain ⟨w, hw, he⟩ := Option.map_eq_some_iff.1 h
        cases he
        exact (translateAccess_some (R := w.1) (k := w.2) hw).2.2
      · cases h

/-- The store window of a store whose fields name registers is what its address translates to. -/
theorem storeWindow_eq {i : Instr} {d : Reg} {off : OffField} {n : Nat} (hw : i.storeShape = some (d.field, off, n))
    (hs : ∀ f ∈ i.usedSrc, RegField.names f) (s : State) :
    storeWindow i s =
      (translateAccess s.params reachBoth (offAddress (s.reg d) off) n).map fun w => (w.1, w.2, n) := by
  unfold storeWindow
  simp only [hw, regOfField_field]
  rw [if_pos hs]

/-- A register's own field names a register. -/
theorem names_field (r : Reg) : RegField.names r.field := by cases r <;> decide

/-! ### Everything an execution can do -/

/-- The shapes of the state that the execution of an instruction leaves. -/
inductive Effect (i : Instr) (s : State) : State → Prop where
  /-- A fault: the status alone changes. -/
  | raised (c : Cause) : Effect i s (s.raise c)
  /-- The destination register is written and `pc` moves past the instruction. -/
  | wrote (d : Reg) (v : Word) (h : i.destination = some d.field) : Effect i s ((s.setReg d v).advance i.slots)
  /-- A conditional jump falls through. -/
  | passed (off : OffField) (h : i.jumpOff = some off) : Effect i s (s.advance 1)
  /-- A jump is taken. -/
  | jumped (off : OffField) (h : i.jumpOff = some off) : Effect i s (s.jump off)
  /-- The bytes of the store window are written. -/
  | stored (R : Region) (k n v : Nat) (h : storeWindow i s = some (R, k, n)) :
      Effect i s ((s.setBytes R k (toBytes n v)).advance 1)
  /-- A call missed: the report alone. -/
  | missed (key : ImmField) (h : i = .call key) : Effect i s ((s.emit (.helperMiss key)).advance 1)
  /-- The run returned. -/
  | finished (h : i = .exit) : Effect i s s.finish

/-- The instruction completes with one of the effects. -/
def HasEffect (i : Instr) (s : State) (r : Result) : Prop := ∃ t, r = .next t ∧ Effect i s t

theorem HasEffect.of_raise {i : Instr} {s : State} {r : Result} {c : Cause} (h : r = .next (s.raise c)) :
    HasEffect i s r := ⟨_, h, .raised c⟩

theorem aluImm_effect {i : Instr} {dst : RegField} (hd : i.destination = some dst) (hn : i.slots = 1)
    (op : Word → Word → Word) (imm : ImmField) (s : State) : HasEffect i s (aluImm op dst imm s) := by
  rcases withReg_cases dst s _ with ⟨d, rfl, h⟩ | ⟨_, h⟩
  · exact ⟨_, h, by simpa [hn] using Effect.wrote (s := s) d _ hd⟩
  · exact .of_raise h

theorem aluUnary_effect {i : Instr} {dst : RegField} (hd : i.destination = some dst) (hn : i.slots = 1)
    (op : Word → Word) (s : State) : HasEffect i s (aluUnary op dst s) := by
  rcases withReg_cases dst s _ with ⟨d, rfl, h⟩ | ⟨_, h⟩
  · exact ⟨_, h, by simpa [hn] using Effect.wrote (s := s) d _ hd⟩
  · exact .of_raise h

theorem aluReg_effect {i : Instr} {dst : RegField} (hd : i.destination = some dst) (hn : i.slots = 1)
    (op : Word → Word → Word) (src : RegField) (s : State) : HasEffect i s (aluReg op dst src s) := by
  rcases withRegs_cases dst src s _ with ⟨d, r, rfl, rfl, h⟩ | ⟨_, h⟩
  · exact ⟨_, h, by simpa [hn] using Effect.wrote (s := s) d _ hd⟩
  · exact .of_raise h

theorem divideInto_effect {i : Instr} {d : Reg} (hd : i.destination = some d.field) (hn : i.slots = 1)
    (op : Word → Word → Word) (b : Word) (s : State) : HasEffect i s (divideInto op d b s) := by
  unfold divideInto
  split
  · exact .of_raise rfl
  · exact ⟨_, rfl, by simpa [hn] using Effect.wrote (s := s) d _ hd⟩

theorem divImm_effect {i : Instr} {dst : RegField} (hd : i.destination = some dst) (hn : i.slots = 1)
    (op : Word → Word → Word) (imm : ImmField) (s : State) : HasEffect i s (divImm op dst imm s) := by
  rcases withReg_cases dst s (fun d => divideInto op d (sextImm imm) s) with ⟨d, rfl, h⟩ | ⟨_, h⟩
  · rw [divImm, h]; exact divideInto_effect hd hn op _ s
  · exact .of_raise h

theorem divReg_effect {i : Instr} {dst : RegField} (hd : i.destination = some dst) (hn : i.slots = 1)
    (op : Word → Word → Word) (src : RegField) (s : State) : HasEffect i s (divReg op dst src s) := by
  rcases withRegs_cases dst src s (fun d r => divideInto op d (s.reg r) s) with ⟨d, r, rfl, rfl, h⟩ | ⟨_, h⟩
  · rw [divReg, h]; exact divideInto_effect hd hn op _ s
  · exact .of_raise h

theorem byteSwap_effect {i : Instr} {dst : RegField} (hd : i.destination = some dst) (hn : i.slots = 1)
    (op : Nat → Word → Word) (imm : ImmField) (s : State) : HasEffect i s (byteSwap op dst imm s) := by
  unfold byteSwap
  rcases withReg_cases dst s _ with ⟨d, rfl, h⟩ | ⟨_, h⟩
  · rw [h]
    split
    · exact ⟨_, rfl, by simpa [hn] using Effect.wrote (s := s) d _ hd⟩
    · exact .of_raise rfl
  · exact .of_raise h

theorem branch_effect {i : Instr} {off : OffField} (hj : i.jumpOff = some off) (taken : Bool) (s : State) :
    HasEffect i s (branch taken off s) := by
  unfold branch
  split
  · exact ⟨_, rfl, .jumped off hj⟩
  · exact ⟨_, rfl, .passed off hj⟩

theorem jumpImm_effect {i : Instr} {off : OffField} (hj : i.jumpOff = some off) (cond : Word → Word → Bool)
    (dst : RegField) (imm : ImmField) (s : State) : HasEffect i s (jumpImm cond dst imm off s) := by
  unfold jumpImm
  rcases withReg_cases dst s _ with ⟨d, rfl, h⟩ | ⟨_, h⟩
  · rw [h]; exact branch_effect hj _ s
  · exact .of_raise h

theorem jumpReg_effect {i : Instr} {off : OffField} (hj : i.jumpOff = some off) (cond : Word → Word → Bool)
    (dst src : RegField) (s : State) : HasEffect i s (jumpReg cond dst src off s) := by
  unfold jumpReg
  rcases withRegs_cases dst src s _ with ⟨d, r, rfl, rfl, h⟩ | ⟨_, h⟩
  · rw [h]; exact branch_effect hj _ s
  · exact .of_raise h

theorem loadInto_effect {i : Instr} {d : Reg} (hd : i.destination = some d.field) (hn : i.slots = 1)
    (reach : List Region) (a : Int) (n : Nat) (s : State) : HasEffect i s (loadInto d reach a n s) := by
  rcases loadInto_cases d reach a n s with ⟨R, k, _, h⟩ | ⟨_, h⟩
  · exact ⟨_, h, by simpa [hn] using Effect.wrote (s := s) d _ hd⟩
  · exact .of_raise h

theorem loadInd_effect {i : Instr} (hd : i.destination = some Reg.r0.field) (hn : i.slots = 1) (n : Nat)
    (src : RegField) (imm : ImmField) (s : State) : HasEffect i s (loadInd n src imm s) := by
  unfold loadInd
  rcases withReg_cases src s _ with ⟨r, rfl, h⟩ | ⟨_, h⟩
  · rw [h]; exact loadInto_effect hd hn _ _ _ s
  · exact .of_raise h

theorem loadOff_effect {i : Instr} {dst : RegField} (hd : i.destination = some dst) (hn : i.slots = 1) (n : Nat)
    (src : RegField) (off : OffField) (s : State) : HasEffect i s (loadOff n dst src off s) := by
  unfold loadOff
  rcases withRegs_cases dst src s _ with ⟨d, r, rfl, rfl, h⟩ | ⟨_, h⟩
  · rw [h]; exact loadInto_effect hd hn _ _ _ s
  · exact .of_raise h

theorem storeAt_effect {i : Instr} {d : Reg} {off : OffField} {n : Nat} (hw : i.storeShape = some (d.field, off, n))
    (hs : ∀ f ∈ i.usedSrc, RegField.names f) (v : Word) (s : State) : HasEffect i s (storeAt (offAddress (s.reg d) off) n v s) := by
  rcases storeAt_cases (offAddress (s.reg d) off) n v s with ⟨R, k, ht, h⟩ | ⟨_, h⟩
  · exact ⟨_, h, .stored R k n _ (by rw [storeWindow_eq hw hs, ht]; rfl)⟩
  · exact .of_raise h

theorem storeImm_effect {i : Instr} {dst : RegField} {off : OffField} {n : Nat}
    (hw : i.storeShape = some (dst, off, n)) (hs : i.usedSrc = none) (imm : ImmField) (s : State) :
    HasEffect i s (storeImm n dst off imm s) := by
  unfold storeImm
  rcases withReg_cases dst s _ with ⟨d, rfl, h⟩ | ⟨_, h⟩
  · rw [h]; exact storeAt_effect hw (by simp [hs]) _ s
  · exact .of_raise h

theorem storeReg_effect {i : Instr} {dst : RegField} {off : OffField} {n : Nat}
    (hw : i.storeShape = some (dst, off, n)) {src : RegField} (hs : i.usedSrc = some src) (s : State) :
    HasEffect i s (storeReg n dst off src s) := by
  unfold storeReg
  rcases withRegs_cases dst src s _ with ⟨d, r, rfl, rfl, h⟩ | ⟨_, h⟩
  · rw [h]; exact storeAt_effect hw (by simp [hs, names_field]) _ s
  · exact .of_raise h

theorem loadWide_effect {i : Instr} {dst : RegField} (hd : i.destination = some dst) (hn : i.slots = 2)
    (imm imm2 : ImmField) (s : State) : HasEffect i s (loadWide dst imm imm2 s) := by
  unfold loadWide
  rcases withReg_cases dst s _ with ⟨d, rfl, h⟩ | ⟨_, h⟩
  · rw [h]; exact ⟨_, rfl, by simpa [hn] using Effect.wrote (s := s) d _ hd⟩
  · exact .of_raise h

theorem callHelper_effect (key : ImmField) (s : State) : HasEffect (.call key) s (callHelper key s) := by
  unfold callHelper
  split
  · exact ⟨_, rfl, Effect.wrote (i := .call key) (s := s) .r0 _ rfl⟩
  · exact ⟨_, rfl, .missed key rfl⟩

/-- Every instruction, from every state, goes to a next state that has one of the seven shapes of `Effect`. -/
theorem exec_effect (i : Instr) (s : State) : HasEffect i s (exec i s) := by
  cases i with
  | add64Imm dst imm => exact aluImm_effect (i := .add64Imm dst imm) rfl rfl _ _ s
  | add64Reg dst src => exact aluReg_effect (i := .add64Reg dst src) rfl rfl _ _ s
  | sub64Imm dst imm => exact aluImm_effect (i := .sub64Imm dst imm) rfl rfl _ _ s
  | sub64Reg dst src => exact aluReg_effect (i := .sub64Reg dst src) rfl rfl _ _ s
  | mul64Imm dst imm => exact aluImm_effect (i := .mul64Imm dst imm) rfl rfl _ _ s
  | mul64Reg dst src => exact aluReg_effect (i := .mul64Reg dst src) rfl rfl _ _ s
  | div64Imm dst imm => exact divImm_effect (i := .div64Imm dst imm) rfl rfl _ _ s
  | div64Reg dst src => exact divReg_effect (i := .div64Reg dst src) rfl rfl _ _ s
  | or64Imm dst imm => exact aluImm_effect (i := .or64Imm dst imm) rfl rfl _ _ s
  | or64Reg dst src => exact aluReg_effect (i := .or64Reg dst src) rfl rfl _ _ s
  | and64Imm dst imm => exact aluImm_effect (i := .and64Imm dst imm) rfl rfl _ _ s
  | and64Reg dst src => exact aluReg_effect (i := .and64Reg dst src) rfl rfl _ _ s
  | lsh64Imm dst imm => exact aluImm_effect (i := .lsh64Imm dst imm) rfl rfl _ _ s
  | lsh64Reg dst src => exact aluReg_effect (i := .lsh64Reg dst src) rfl rfl _ _ s
  | rsh64Imm dst imm => exact aluImm_effect (i := .rsh64Imm dst imm) rfl rfl _ _ s
  | rsh64Reg dst src => exact aluReg_effect (i := .rsh64Reg dst src) rfl rfl _ _ s
  | neg64 dst => exact aluUnary_effect (i := .neg64 dst) rfl rfl _ s
  | mod64Imm dst imm => exact divImm_effect (i := .mod64Imm dst imm) rfl rfl _ _ s
  | mod64Reg dst src => exact divReg_effect (i := .mod64Reg dst src) rfl rfl _ _ s
  | xor64Imm dst imm => exact aluImm_effect (i := .xor64Imm dst imm) rfl rfl _ _ s
  | xor64Reg dst src => exact aluReg_effect (i := .xor64Reg dst src) rfl rfl _ _ s
  | mov64Imm dst imm => exact aluImm_effect (i := .mov64Imm dst imm) rfl rfl _ _ s
  | mov64Reg dst src => exact aluReg_effect (i := .mov64Reg dst src) rfl rfl _ _ s
  | arsh64Imm dst imm => exact aluImm_effect (i := .arsh64Imm dst imm) rfl rfl _ _ s
  | arsh64Reg dst src => exact aluReg_effect (i := .arsh64Reg dst src) rfl rfl _ _ s
  | add32Imm dst imm => exact aluImm_effect (i := .add32Imm dst imm) rfl rfl _ _ s
  | add32Reg dst src => exact aluReg_effect (i := .add32Reg dst src) rfl rfl _ _ s
  | sub32Imm dst imm => exact aluImm_effect (i := .sub32Imm dst imm) rfl rfl _ _ s
  | sub32Reg dst src => exact aluReg_effect (i := .sub32Reg dst src) rfl rfl _ _ s
  | mul32Imm dst imm => exact aluImm_effect (i := .mul32Imm dst imm) rfl rfl _ _ s
  | mul32Reg dst src => exact aluReg_effect (i := .mul32Reg dst src) rfl rfl _ _ s
  | div32Imm dst imm => exact divImm_effect (i := .div32Imm dst imm) rfl rfl _ _ s
  | div32Reg dst src => exact divReg_effect (i := .div32Reg dst src) rfl rfl _ _ s
  | or32Imm dst imm => exact aluImm_effect (i := .or32Imm dst imm) rfl rfl _ _ s
  | or32Reg dst src => exact aluReg_effect (i := .or32Reg dst src) rfl rfl _ _ s
  | and32Imm dst imm => exact aluImm_effect (i := .and32Imm dst imm) rfl rfl _ _ s
  | and32Reg dst src => exact aluReg_effect (i := .and32Reg dst src) rfl rfl _ _ s
  | lsh32Imm dst imm => exact aluImm_effect (i := .lsh32Imm dst imm) rfl rfl _ _ s
  | lsh32Reg dst src => exact aluReg_effect (i := .lsh32Reg dst src) rfl rfl _ _ s
  | rsh32Imm dst imm => exact aluImm_effect (i := .rsh32Imm dst imm) rfl rfl _ _ s
  | rsh32Reg dst src => exact aluReg_effect (i := .rsh32Reg dst src) rfl rfl _ _ s
  | neg32 dst => exact aluUnary_effect (i := .neg32 dst) rfl rfl _ s
  | mod32Imm dst imm => exact divImm_effect (i := .mod32Imm dst imm) rfl rfl _ _ s
  | mod32Reg dst src => exact divReg_effect (i := .mod32Reg dst src) rfl rfl _ _ s
  | xor32Imm dst imm => exact aluImm_effect (i := .xor32Imm dst imm) rfl rfl _ _ s
  | xor32Reg dst src => exact aluReg_effect (i := .xor32Reg dst src) rfl rfl _ _ s
  | mov32Imm dst imm => exact aluImm_effect (i := .mov32Imm dst imm) rfl rfl _ _ s
  | mov32Reg dst src => exact aluReg_effect (i := .mov32Reg dst src) rfl rfl _ _ s
  | arsh32Imm dst imm => exact aluImm_effect (i := .arsh32Imm dst imm) rfl rfl _ _ s
  | arsh32Reg dst src => exact aluReg_effect (i := .arsh32Reg dst src) rfl rfl _ _ s
  | le dst imm => exact byteSwap_effect (i := .le dst imm) rfl rfl _ _ s
  | be dst imm => exact byteSwap_effect (i := .be dst imm) rfl rfl _ _ s
  | ja off => exact ⟨_, rfl, .jumped off rfl⟩
  | jeqImm dst imm off => exact jumpImm_effect (i := .jeqImm dst imm off) rfl _ _ _ s
  | jeqReg dst src off => exact jumpReg_effect (i := .jeqReg dst src off) rfl _ _ _ s
  | jgtImm dst imm off => exact jumpImm_effect (i := .jgtImm dst imm off) rfl _ _ _ s
  | jgtReg dst src off => exact jumpReg_effect (i := .jgtReg dst src off) rfl _ _ _ s
  | jgeImm dst imm off => exact jumpImm_effect (i := .jgeImm dst imm off) rfl _ _ _ s
  | jgeReg dst src off => exact jumpReg_effect (i := .jgeReg dst src off) rfl _ _ _ s
  | jsetImm dst imm off => exact jumpImm_effect (i := .jsetImm dst imm off) rfl _ _ _ s
  | jsetReg dst src off => exact jumpReg_effect (i := .jsetReg dst src off) rfl _ _ _ s
  | jneImm dst imm off => exact jumpImm_effect (i := .jneImm dst imm off) rfl _ _ _ s
  | jneReg dst src off => exact jumpReg_effect (i := .jneReg dst src off) rfl _ _ _ s
  | jsgtImm dst imm off => exact jumpImm_effect (i := .jsgtImm dst imm off) rfl _ _ _ s
  | jsgtReg dst src off => exact jumpReg_effect (i := .jsgtReg dst src off) rfl _ _ _ s
  | jsgeImm dst imm off => exact jumpImm_effect (i := .jsgeImm dst imm off) rfl _ _ _ s
  | jsgeReg dst src off => exact jumpReg_effect (i := .jsgeReg dst src off) rfl _ _ _ s
  | jltImm dst imm off => exact jumpImm_effect (i := .jltImm dst imm off) rfl _ _ _ s
  | jltReg dst src off => exact jumpReg_effect (i := .jltReg dst src off) rfl _ _ _ s
  | jleImm dst imm off => exact jumpImm_effect (i := .jleImm dst imm off) rfl _ _ _ s
  | jleReg dst src off => exact jumpReg_effect (i := .jleReg dst src off) rfl _ _ _ s
  | jsltImm dst imm off => exact jumpImm_effect (i := .jsltImm dst imm off) rfl _ _ _ s
  | jsltReg dst src off => exact jumpReg_effect (i := .jsltReg dst src off) rfl _ _ _ s
  | jsleImm dst imm off => exact jumpImm_effect (i := .jsleImm dst imm off) rfl _ _ _ s
  | jsleReg dst src off => exact jumpReg_effect (i := .jsleReg dst src off) rfl _ _ _ s
  | call imm => exact callHelper_effect imm s
  | exit => exact ⟨_, rfl, .finished rfl⟩
  | lddw dst imm imm2 => exact loadWide_effect (i := .lddw dst imm imm2) rfl rfl _ _ s
  | ldabsw imm => exact loadInto_effect (i := .ldabsw imm) (d := .r0) rfl rfl _ _ _ s
  | ldabsh imm => exact loadInto_effect (i := .ldabsh imm) (d := .r0) rfl rfl _ _ _ s
  | ldabsb imm => exact loadInto_effect (i := .ldabsb imm) (d := .r0) rfl rfl _ _ _ s
  | ldabsdw imm => exact loadInto_effect (i := .ldabsdw imm) (d := .r0) rfl rfl _ _ _ s
  | ldindw src imm => exact loadInd_effect (i := .ldindw src imm) rfl rfl _ _ _ s
  | ldindh src imm => exact loadInd_effect (i := .ldindh src imm) rfl rfl _ _ _ s
  | ldindb src imm => exact loadInd_effect (i := .ldindb src imm) rfl rfl _ _ _ s
  | ldinddw src imm => exact loadInd_effect (i := .ldinddw src imm) rfl rfl _ _ _ s
  | ldxw dst src off => exact loadOff_effect (i := .ldxw dst src off) rfl rfl _ _ _ s
  | ldxh dst src off => exact loadOff_effect (i := .ldxh dst src off) rfl rfl _ _ _ s
  | ldxb dst src off => exact loadOff_effect (i := .ldxb dst src off) rfl rfl _ _ _ s
  | ldxdw dst src off => exact loadOff_effect (i := .ldxdw dst src off) rfl rfl _ _ _ s
  | stw dst off imm => exact storeImm_effect (i := .stw dst off imm) rfl rfl _ s
  | sth dst off imm => exact storeImm_effect (i := .sth dst off imm) rfl rfl _ s
  | stb dst off imm => exact storeImm_effect (i := .stb dst off imm) rfl rfl _ s
  | stdw dst off imm => exact storeImm_effect (i := .stdw dst off imm) rfl rfl _ s
  | stxw dst off src => exact storeReg_effect (i := .stxw dst off src) rfl rfl s
  | stxh dst off src => exact storeReg_effect (i := .stxh dst off src) rfl rfl s
  | stxb dst off src => exact storeReg_effect (i := .stxb dst off src) rfl rfl s
  | stxdw dst off src => exact storeReg_effect (i := .stxdw dst off src) rfl rfl s

end Sys2Proof.Machine
end

