-- ==== Sys2Proof/Laws/PerInstr.lean ====
section
/-! SUPPORT. The statement family over all instructions: an encoding fills whole slots and begins with the opcode byte
of its row; one lemma per constructor. -/

namespace Sys2Proof

/-- The opcode byte of an instruction's row in spec/opcode_table.json. -/
def Instr.opcode : Instr → Byte
  | .add64Imm _ _ => 0x07#8
  | .add64Reg _ _ => 0x0f#8
  | .sub64Imm _ _ => 0x17#8
  | .sub64Reg _ _ => 0x1f#8
  | .mul64Imm _ _ => 0x27#8
  | .mul64Reg _ _ => 0x2f#8
  | .div64Imm _ _ => 0x37#8
  | .div64Reg _ _ => 0x3f#8
  | .or64Imm _ _ => 0x47#8
  | .or64Reg _ _ => 0x4f#8
  | .and64Imm _ _ => 0x57#8
  | .and64Reg _ _ => 0x5f#8
  | .lsh64Imm _ _ => 0x67#8
  | .lsh64Reg _ _ => 0x6f#8
  | .rsh64Imm _ _ => 0x77#8
  | .rsh64Reg _ _ => 0x7f#8
  | .neg64 _ => 0x87#8
  | .mod64Imm _ _ => 0x97#8
  | .mod64Reg _ _ => 0x9f#8
  | .xor64Imm _ _ => 0xa7#8
  | .xor64Reg _ _ => 0xaf#8
  | .mov64Imm _ _ => 0xb7#8
  | .mov64Reg _ _ => 0xbf#8
  | .arsh64Imm _ _ => 0xc7#8
  | .arsh64Reg _ _ => 0xcf#8
  | .add32Imm _ _ => 0x04#8
  | .add32Reg _ _ => 0x0c#8
  | .sub32Imm _ _ => 0x14#8
  | .sub32Reg _ _ => 0x1c#8
  | .mul32Imm _ _ => 0x24#8
  | .mul32Reg _ _ => 0x2c#8
  | .div32Imm _ _ => 0x34#8
  | .div32Reg _ _ => 0x3c#8
  | .or32Imm _ _ => 0x44#8
  | .or32Reg _ _ => 0x4c#8
  | .and32Imm _ _ => 0x54#8
  | .and32Reg _ _ => 0x5c#8
  | .lsh32Imm _ _ => 0x64#8
  | .lsh32Reg _ _ => 0x6c#8
  | .rsh32Imm _ _ => 0x74#8
  | .rsh32Reg _ _ => 0x7c#8
  | .neg32 _ => 0x84#8
  | .mod32Imm _ _ => 0x94#8
  | .mod32Reg _ _ => 0x9c#8
  | .xor32Imm _ _ => 0xa4#8
  | .xor32Reg _ _ => 0xac#8
  | .mov32Imm _ _ => 0xb4#8
  | .mov32Reg _ _ => 0xbc#8
  | .arsh32Imm _ _ => 0xc4#8
  | .arsh32Reg _ _ => 0xcc#8
  | .le _ _ => 0xd4#8
  | .be _ _ => 0xdc#8
  | .ja _ => 0x05#8
  | .jeqImm _ _ _ => 0x15#8
  | .jeqReg _ _ _ => 0x1d#8
  | .jgtImm _ _ _ => 0x25#8
  | .jgtReg _ _ _ => 0x2d#8
  | .jgeImm _ _ _ => 0x35#8
  | .jgeReg _ _ _ => 0x3d#8
  | .jsetImm _ _ _ => 0x45#8
  | .jsetReg _ _ _ => 0x4d#8
  | .jneImm _ _ _ => 0x55#8
  | .jneReg _ _ _ => 0x5d#8
  | .jsgtImm _ _ _ => 0x65#8
  | .jsgtReg _ _ _ => 0x6d#8
  | .jsgeImm _ _ _ => 0x75#8
  | .jsgeReg _ _ _ => 0x7d#8
  | .jltImm _ _ _ => 0xa5#8
  | .jltReg _ _ _ => 0xad#8
  | .jleImm _ _ _ => 0xb5#8
  | .jleReg _ _ _ => 0xbd#8
  | .jsltImm _ _ _ => 0xc5#8
  | .jsltReg _ _ _ => 0xcd#8
  | .jsleImm _ _ _ => 0xd5#8
  | .jsleReg _ _ _ => 0xdd#8
  | .call _ => 0x85#8
  | .exit => 0x95#8
  | .lddw _ _ _ => 0x18#8
  | .ldabsw _ => 0x20#8
  | .ldabsh _ => 0x28#8
  | .ldabsb _ => 0x30#8
  | .ldabsdw _ => 0x38#8
  | .ldindw _ _ => 0x40#8
  | .ldindh _ _ => 0x48#8
  | .ldindb _ _ => 0x50#8
  | .ldinddw _ _ => 0x58#8
  | .ldxw _ _ _ => 0x61#8
  | .ldxh _ _ _ => 0x69#8
  | .ldxb _ _ _ => 0x71#8
  | .ldxdw _ _ _ => 0x79#8
  | .stw _ _ _ => 0x62#8
  | .sth _ _ _ => 0x6a#8
  | .stb _ _ _ => 0x72#8
  | .stdw _ _ _ => 0x7a#8
  | .stxw _ _ _ => 0x63#8
  | .stxh _ _ _ => 0x6b#8
  | .stxb _ _ _ => 0x73#8
  | .stxdw _ _ _ => 0x7b#8

end Sys2Proof

namespace Sys2Proof.Laws.EncodesWholeSlots

/-- The encoding of an instruction is `8 * slots` bytes long and its first byte is the opcode of its row (R80, R81,
R94). -/
def Statement (i : Instr) : Prop := (encode i).length = 8 * i.slots ∧ (encode i).head? = some i.opcode

theorem add64Imm (dst : RegField) (imm : ImmField) : Statement (.add64Imm dst imm) := ⟨rfl, rfl⟩
theorem add64Reg (dst src : RegField) : Statement (.add64Reg dst src) := ⟨rfl, rfl⟩
theorem sub64Imm (dst : RegField) (imm : ImmField) : Statement (.sub64Imm dst imm) := ⟨rfl, rfl⟩
theorem sub64Reg (dst src : RegField) : Statement (.sub64Reg dst src) := ⟨rfl, rfl⟩
theorem mul64Imm (dst : RegField) (imm : ImmField) : Statement (.mul64Imm dst imm) := ⟨rfl, rfl⟩
theorem mul64Reg (dst src : RegField) : Statement (.mul64Reg dst src) := ⟨rfl, rfl⟩
theorem div64Imm (dst : RegField) (imm : ImmField) : Statement (.div64Imm dst imm) := ⟨rfl, rfl⟩
theorem div64Reg (dst src : RegField) : Statement (.div64Reg dst src) := ⟨rfl, rfl⟩
theorem or64Imm (dst : RegField) (imm : ImmField) : Statement (.or64Imm dst imm) := ⟨rfl, rfl⟩
theorem or64Reg (dst src : RegField) : Statement (.or64Reg dst src) := ⟨rfl, rfl⟩
theorem and64Imm (dst : RegField) (imm : ImmField) : Statement (.and64Imm dst imm) := ⟨rfl, rfl⟩
theorem and64Reg (dst src : RegField) : Statement (.and64Reg dst src) := ⟨rfl, rfl⟩
theorem lsh64Imm (dst : RegField) (imm : ImmField) : Statement (.lsh64Imm dst imm) := ⟨rfl, rfl⟩
theorem lsh64Reg (dst src : RegField) : Statement (.lsh64Reg dst src) := ⟨rfl, rfl⟩
theorem rsh64Imm (dst : RegField) (imm : ImmField) : Statement (.rsh64Imm dst imm) := ⟨rfl, rfl⟩
theorem rsh64Reg (dst src : RegField) : Statement (.rsh64Reg dst src) := ⟨rfl, rfl⟩
theorem neg64 (dst : RegField) : Statement (.neg64 dst) := ⟨rfl, rfl⟩
theorem mod64Imm (dst : RegField) (imm : ImmField) : Statement (.mod64Imm dst imm) := ⟨rfl, rfl⟩
theorem mod64Reg (dst src : RegField) : Statement (.mod64Reg dst src) := ⟨rfl, rfl⟩
theorem xor64Imm (dst : RegField) (imm : ImmField) : Statement (.xor64Imm dst imm) := ⟨rfl, rfl⟩
theorem xor64Reg (dst src : RegField) : Statement (.xor64Reg dst src) := ⟨rfl, rfl⟩
theorem mov64Imm (dst : RegField) (imm : ImmField) : Statement (.mov64Imm dst imm) := ⟨rfl, rfl⟩
theorem mov64Reg (dst src : RegField) : Statement (.mov64Reg dst src) := ⟨rfl, rfl⟩
theorem arsh64Imm (dst : RegField) (imm : ImmField) : Statement (.arsh64Imm dst imm) := ⟨rfl, rfl⟩
theorem arsh64Reg (dst src : RegField) : Statement (.arsh64Reg dst src) := ⟨rfl, rfl⟩
theorem add32Imm (dst : RegField) (imm : ImmField) : Statement (.add32Imm dst imm) := ⟨rfl, rfl⟩
theorem add32Reg (dst src : RegField) : Statement (.add32Reg dst src) := ⟨rfl, rfl⟩
theorem sub32Imm (dst : RegField) (imm : ImmField) : Statement (.sub32Imm dst imm) := ⟨rfl, rfl⟩
theorem sub32Reg (dst src : RegField) : Statement (.sub32Reg dst src) := ⟨rfl, rfl⟩
theorem mul32Imm (dst : RegField) (imm : ImmField) : Statement (.mul32Imm dst imm) := ⟨rfl, rfl⟩
theorem mul32Reg (dst src : RegField) : Statement (.mul32Reg dst src) := ⟨rfl, rfl⟩
theorem div32Imm (dst : RegField) (imm : ImmField) : Statement (.div32Imm dst imm) := ⟨rfl, rfl⟩
theorem div32Reg (dst src : RegField) : Statement (.div32Reg dst src) := ⟨rfl, rfl⟩
theorem or32Imm (dst : RegField) (imm : ImmField) : Statement (.or32Imm dst imm) := ⟨rfl, rfl⟩
theorem or32Reg (dst src : RegField) : Statement (.or32Reg dst src) := ⟨rfl, rfl⟩
theorem and32Imm (dst : RegField) (imm : ImmField) : Statement (.and32Imm dst imm) := ⟨rfl, rfl⟩
theorem and32Reg (dst src : RegField) : Statement (.and32Reg dst src) := ⟨rfl, rfl⟩
theorem lsh32Imm (dst : RegField) (imm : ImmField) : Statement (.lsh32Imm dst imm) := ⟨rfl, rfl⟩
theorem lsh32Reg (dst src : RegField) : Statement (.lsh32Reg dst src) := ⟨rfl, rfl⟩
theorem rsh32Imm (dst : RegField) (imm : ImmField) : Statement (.rsh32Imm dst imm) := ⟨rfl, rfl⟩
theorem rsh32Reg (dst src : RegField) : Statement (.rsh32Reg dst src) := ⟨rfl, rfl⟩
theorem neg32 (dst : RegField) : Statement (.neg32 dst) := ⟨rfl, rfl⟩
theorem mod32Imm (dst : RegField) (imm : ImmField) : Statement (.mod32Imm dst imm) := ⟨rfl, rfl⟩
theorem mod32Reg (dst src : RegField) : Statement (.mod32Reg dst src) := ⟨rfl, rfl⟩
theorem xor32Imm (dst : RegField) (imm : ImmField) : Statement (.xor32Imm dst imm) := ⟨rfl, rfl⟩
theorem xor32Reg (dst src : RegField) : Statement (.xor32Reg dst src) := ⟨rfl, rfl⟩
theorem mov32Imm (dst : RegField) (imm : ImmField) : Statement (.mov32Imm dst imm) := ⟨rfl, rfl⟩
theorem mov32Reg (dst src : RegField) : Statement (.mov32Reg dst src) := ⟨rfl, rfl⟩
theorem arsh32Imm (dst : RegField) (imm : ImmField) : Statement (.arsh32Imm dst imm) := ⟨rfl, rfl⟩
theorem arsh32Reg (dst src : RegField) : Statement (.arsh32Reg dst src) := ⟨rfl, rfl⟩
theorem le (dst : RegField) (imm : ImmField) : Statement (.le dst imm) := ⟨rfl, rfl⟩
theorem be (dst : RegField) (imm : ImmField) : Statement (.be dst imm) := ⟨rfl, rfl⟩
theorem ja (off : OffField) : Statement (.ja off) := ⟨rfl, rfl⟩
theorem jeqImm (dst : RegField) (imm : ImmField) (off : OffField) : Statement (.jeqImm dst imm off) := ⟨rfl, rfl⟩
theorem jeqReg (dst src : RegField) (off : OffField) : Statement (.jeqReg dst src off) := ⟨rfl, rfl⟩
theorem jgtImm (dst : RegField) (imm : ImmField) (off : OffField) : Statement (.jgtImm dst imm off) := ⟨rfl, rfl⟩
theorem jgtReg (dst src : RegField) (off : OffField) : Statement (.jgtReg dst src off) := ⟨rfl, rfl⟩
theorem jgeImm (dst : RegField) (imm : ImmField) (off : OffField) : Statement (.jgeImm dst imm off) := ⟨rfl, rfl⟩
theorem jgeReg (dst src : RegField) (off : OffField) : Statement (.jgeReg dst src off) := ⟨rfl, rfl⟩
theorem jsetImm (dst : RegField) (imm : ImmField) (off : OffField) : Statement (.jsetImm dst imm off) := ⟨rfl, rfl⟩
theorem jsetReg (dst src : RegField) (off : OffField) : Statement (.jsetReg dst src off) := ⟨rfl, rfl⟩
theorem jneImm (dst : RegField) (imm : ImmField) (off : OffField) : Statement (.jneImm dst imm off) := ⟨rfl, rfl⟩
theorem jneReg (dst src : RegField) (off : OffField) : Statement (.jneReg dst src off) := ⟨rfl, rfl⟩
theorem jsgtImm (dst : RegField) (imm : ImmField) (off : OffField) : Statement (.jsgtImm dst imm off) := ⟨rfl, rfl⟩
theorem jsgtReg (dst src : RegField) (off : OffField) : Statement (.jsgtReg dst src off) := ⟨rfl, rfl⟩
theorem jsgeImm (dst : RegField) (imm : ImmField) (off : OffField) : Statement (.jsgeImm dst imm off) := ⟨rfl, rfl⟩
theorem jsgeReg (dst src : RegField) (off : OffField) : Statement (.jsgeReg dst src off) := ⟨rfl, rfl⟩
theorem jltImm (dst : RegField) (imm : ImmField) (off : OffField) : Statement (.jltImm dst imm off) := ⟨rfl, rfl⟩
theorem jltReg (dst src : RegField) (off : OffField) : Statement (.jltReg dst src off) := ⟨rfl, rfl⟩
theorem jleImm (dst : RegField) (imm : ImmField) (off : OffField) : Statement (.jleImm dst imm off) := ⟨rfl, rfl⟩
theorem jleReg (dst src : RegField) (off : OffField) : Statement (.jleReg dst src off) := ⟨rfl, rfl⟩
theorem jsltImm (dst : RegField) (imm : ImmField) (off : OffField) : Statement (.jsltImm dst imm off) := ⟨rfl, rfl⟩
theorem jsltReg (dst src : RegField) (off : OffField) : Statement (.jsltReg dst src off) := ⟨rfl, rfl⟩
theorem jsleImm (dst : RegField) (imm : ImmField) (off : OffField) : Statement (.jsleImm dst imm off) := ⟨rfl, rfl⟩
theorem jsleReg (dst src : RegField) (off : OffField) : Statement (.jsleReg dst src off) := ⟨rfl, rfl⟩
theorem call (imm : ImmField) : Statement (.call imm) := ⟨rfl, rfl⟩
theorem exit : Statement (.exit) := ⟨rfl, rfl⟩
theorem lddw (dst : RegField) (imm imm2 : ImmField) : Statement (.lddw dst imm imm2) := ⟨rfl, rfl⟩
theorem ldabsw (imm : ImmField) : Statement (.ldabsw imm) := ⟨rfl, rfl⟩
theorem ldabsh (imm : ImmField) : Statement (.ldabsh imm) := ⟨rfl, rfl⟩
theorem ldabsb (imm : ImmField) : Statement (.ldabsb imm) := ⟨rfl, rfl⟩
theorem ldabsdw (imm : ImmField) : Statement (.ldabsdw imm) := ⟨rfl, rfl⟩
theorem ldindw (src : RegField) (imm : ImmField) : Statement (.ldindw src imm) := ⟨rfl, rfl⟩
theorem ldindh (src : RegField) (imm : ImmField) : Statement (.ldindh src imm) := ⟨rfl, rfl⟩
theorem ldindb (src : RegField) (imm : ImmField) : Statement (.ldindb src imm) := ⟨rfl, rfl⟩
theorem ldinddw (src : RegField) (imm : ImmField) : Statement (.ldinddw src imm) := ⟨rfl, rfl⟩
theorem ldxw (dst src : RegField) (off : OffField) : Statement (.ldxw dst src off) := ⟨rfl, rfl⟩
theorem ldxh (dst src : RegField) (off : OffField) : Statement (.ldxh dst src off) := ⟨rfl, rfl⟩
theorem ldxb (dst src : RegField) (off : OffField) : Statement (.ldxb dst src off) := ⟨rfl, rfl⟩
theorem ldxdw (dst src : RegField) (off : OffField) : Statement (.ldxdw dst src off) := ⟨rfl, rfl⟩
theorem stw (dst : RegField) (off : OffField) (imm : ImmField) : Statement (.stw dst off imm) := ⟨rfl, rfl⟩
theorem sth (dst : RegField) (off : OffField) (imm : ImmField) : Statement (.sth dst off imm) := ⟨rfl, rfl⟩
theorem stb (dst : RegField) (off : OffField) (imm : ImmField) : Statement (.stb dst off imm) := ⟨rfl, rfl⟩
theorem stdw (dst : RegField) (off : OffField) (imm : ImmField) : Statement (.stdw dst off imm) := ⟨rfl, rfl⟩
theorem stxw (dst : RegField) (off : OffField) (src : RegField) : Statement (.stxw dst off src) := ⟨rfl, rfl⟩
theorem stxh (dst : RegField) (off : OffField) (src : RegField) : Statement (.stxh dst off src) := ⟨rfl, rfl⟩
theorem stxb (dst : RegField) (off : OffField) (src : RegField) : Statement (.stxb dst off src) := ⟨rfl, rfl⟩
theorem stxdw (dst : RegField) (off : OffField) (src : RegField) : Statement (.stxdw dst off src) := ⟨rfl, rfl⟩

end Sys2Proof.Laws.EncodesWholeSlots
end

