-- ==== Sys2Proof/Laws/Step.lean ====
section
/-! SUPPORT. Once, everything a step can do (spec/40_execution_loop.md R116). -/

namespace Sys2Proof.Machine

/-- What a fetched instruction says of the state: the guard passed and the bytes at `pc` decode to it. -/
theorem fetch_ok {s : State} {i : Instr} (h : fetch s = .ok i) :
    0 ≤ s.pc ∧ s.pc < s.nslots ∧ ∃ rest, decode (s.program.drop (8 * s.pc.toNat)) = .ok (i, rest) := by
  unfold fetch at h
  split at h
  · cases h
  · rename_i ho
    simp only [State.outside, Bool.or_eq_true, decide_eq_true_eq, not_or, not_lt, not_le] at ho
    refine ⟨ho.1, ho.2, ?_⟩
    split at h
    · rename_i j rest hd
      cases h
      exact ⟨rest, hd⟩
    · cases h
    · cases h
    · cases h

/-- What an execution keeps in every case: the parameters, the program, the registry and the counter. -/
theorem exec_keeps {i : Instr} {s t : State} (h : exec i s = .next t) :
    t.params = s.params ∧ t.program = s.program ∧ t.helpers = s.helpers ∧ t.icount = s.icount := by
  obtain ⟨u, hu, he⟩ := exec_effect i s
  rw [hu] at h
  cases h
  cases he <;> simp

/-- Everything a step can do: stay, where the status is terminal; raise, which changes the status alone; or execute the
fetched instruction and count. -/
theorem step_cases {s t : State} (h : step s = .next t) :
    (s.status ≠ .running ∧ t = s) ∨ (s.status = .running ∧ ∃ c, t = s.raise c) ∨
      (s.status = .running ∧ s.budgetSpent = false ∧ ∃ i u, fetch s = .ok i ∧ exec i s = .next u ∧ Effect i s u ∧
        t = u.counted) := by
  unfold step at h
  split at h
  · rename_i hs
    cases h
    exact .inl ⟨by rw [hs]; exact fun e => (by cases e), rfl⟩
  · rename_i hs
    cases h
    exact .inl ⟨by rw [hs]; exact fun e => (by cases e), rfl⟩
  · rename_i hs
    split at h
    · cases h
      exact .inr (.inl ⟨hs, _, rfl⟩)
    · rename_i hb
      split at h
      · cases h
        exact .inr (.inl ⟨hs, _, rfl⟩)
      · rename_i i hf
        obtain ⟨u, hu, he⟩ := exec_effect i s
        rw [hu] at h
        cases h
        exact .inr (.inr ⟨hs, by simpa using hb, i, u, hf, hu, he, rfl⟩)

/-- Running one step more is a step and then the rest. -/
theorem run_succ (M : Host.Core) (n : Nat) (s t : M.State) (h : M.step s = .next t) : M.run (n + 1) s = M.run n t := by
  rw [Host.Core.run, h]

end Sys2Proof.Machine
end

