-- ==== Sys2Proof/Tests/Slice0.lean ====
section
/-! SUPPORT. The model's own tests: the well-formedness checks refuse ill-formed terms; one word per constructor, taken
from the worked example of its rule, decodes to the instruction of that example; single steps give the results of the
worked examples of spec/41_alu64.md to spec/46_byteswap.md; and for every statement with hypotheses a concrete state and
operands that meet them. -/

namespace Sys2Proof.Tests

open Sys2Proof Sys2Proof.Machine Sys2Proof.Claims

/-! ### Small states -/

/-- The reset register file with some registers set. -/
def regsWith (l : List (Reg × Word)) : RegFile := l.foldl (fun f rv => f.set rv.1 rv.2) State.reset.regs

/-- A state of the reference configuration about to execute these bytes at slot 0. -/
def state (l : List (Reg × Word)) (bytes : List Byte) : State := { State.reset with regs := regsWith l, program := bytes }

/-- The same at slot 3, as the jump examples have it. -/
def stateAt3 (l : List (Reg × Word)) (bytes : List Byte) : State :=
  { State.reset with regs := regsWith l, program := List.replicate 24 0 ++ bytes, pc := 3 }

/-- The memory of the load and store examples: `AS[0x10..0x17]` and `STK[120..127]`. -/
def withMemory (s : State) : State :=
  { s with
    addressSpace := [(16, 0x88), (17, 0x77), (18, 0x66), (19, 0x55), (20, 0x44), (21, 0x33), (22, 0x22), (23, 0x11)]
    stack := [(120, 0x08), (121, 0x07), (122, 0x06), (123, 0x05), (124, 0x04), (125, 0x03), (126, 0x02), (127, 0x01)] }

/-- The state one step later. -/
def after (s : State) : State :=
  match step s with
  | .next t => t
  | .fault _ => s
  | .refused _ => s

/-! ### Well-formedness: each check refuses an ill-formed term -/

theorem test_wf_ok : Instr.WellFormed (.stxdw 10 0xfff8 2) ∧ Instr.WellFormed (.be 1 32) ∧ Instr.WellFormed .exit := by
  decide

theorem test_wf_refuses_dst : ¬ Instr.WellFormed (.add64Imm 11 5) := by decide

theorem test_wf_refuses_src : ¬ Instr.WellFormed (.ldindw 12 0) := by decide

theorem test_wf_refuses_src_behind_dst : ¬ Instr.WellFormed (.jeqReg 0 15 0) := by decide

theorem test_wf_refuses_width : ¬ Instr.WellFormed (.le 1 24) ∧ ¬ Instr.WellFormed (.be 1 0x00010010) := by decide

/-! ### Decoding: the example word of each rule -/

/-- `add64 r1, -1` (R134). -/
theorem test_decode_add64Imm : decodeTableWord 64 0xffffffff00000107 = some (.add64Imm 1 0xffffffff) := by decide

/-- `add64 r1, r2` (R135). -/
theorem test_decode_add64Reg : decodeTableWord 64 0x000000000000210f = some (.add64Reg 1 2) := by decide

/-- `sub64 r1, 1` (R136). -/
theorem test_decode_sub64Imm : decodeTableWord 64 0x0000000100000117 = some (.sub64Imm 1 1) := by decide

/-- `sub64 r1, r2` (R137). -/
theorem test_decode_sub64Reg : decodeTableWord 64 0x000000000000211f = some (.sub64Reg 1 2) := by decide

/-- `mul64 r1, -1` (R138). -/
theorem test_decode_mul64Imm : decodeTableWord 64 0xffffffff00000127 = some (.mul64Imm 1 0xffffffff) := by decide

/-- `mul64 r1, r2` (R139). -/
theorem test_decode_mul64Reg : decodeTableWord 64 0x000000000000212f = some (.mul64Reg 1 2) := by decide

/-- `div64 r1, 2` (R140). -/
theorem test_decode_div64Imm : decodeTableWord 64 0x0000000200000137 = some (.div64Imm 1 2) := by decide

/-- `div64 r1, r2` (R141). -/
theorem test_decode_div64Reg : decodeTableWord 64 0x000000000000213f = some (.div64Reg 1 2) := by decide

/-- `or64 r1, -2147483648` (R142). -/
theorem test_decode_or64Imm : decodeTableWord 64 0x8000000000000147 = some (.or64Imm 1 0x80000000) := by decide

/-- `or64 r1, r2` (R143). -/
theorem test_decode_or64Reg : decodeTableWord 64 0x000000000000214f = some (.or64Reg 1 2) := by decide

/-- `and64 r1, 2147483647` (R144). -/
theorem test_decode_and64Imm : decodeTableWord 64 0x7fffffff00000157 = some (.and64Imm 1 0x7fffffff) := by decide

/-- `and64 r1, r2` (R145). -/
theorem test_decode_and64Reg : decodeTableWord 64 0x000000000000215f = some (.and64Reg 1 2) := by decide

/-- `lsh64 r1, 63` (R146). -/
theorem test_decode_lsh64Imm : decodeTableWord 64 0x0000003f00000167 = some (.lsh64Imm 1 0x3f) := by decide

/-- `lsh64 r1, r2` (R147). -/
theorem test_decode_lsh64Reg : decodeTableWord 64 0x000000000000216f = some (.lsh64Reg 1 2) := by decide

/-- `rsh64 r1, 63` (R148). -/
theorem test_decode_rsh64Imm : decodeTableWord 64 0x0000003f00000177 = some (.rsh64Imm 1 0x3f) := by decide

/-- `rsh64 r1, r2` (R149). -/
theorem test_decode_rsh64Reg : decodeTableWord 64 0x000000000000217f = some (.rsh64Reg 1 2) := by decide

/-- `neg64 r1` (R150). -/
theorem test_decode_neg64 : decodeTableWord 64 0x0000000000000187 = some (.neg64 1) := by decide

/-- `mod64 r1, 7` (R151). -/
theorem test_decode_mod64Imm : decodeTableWord 64 0x0000000700000197 = some (.mod64Imm 1 7) := by decide

/-- `mod64 r1, r2` (R152). -/
theorem test_decode_mod64Reg : decodeTableWord 64 0x000000000000219f = some (.mod64Reg 1 2) := by decide

/-- `xor64 r1, -1` (R153). -/
theorem test_decode_xor64Imm : decodeTableWord 64 0xffffffff000001a7 = some (.xor64Imm 1 0xffffffff) := by decide

/-- `xor64 r1, r2` (R154). -/
theorem test_decode_xor64Reg : decodeTableWord 64 0x00000000000021af = some (.xor64Reg 1 2) := by decide

/-- `mov64 r1, -2` (R155). -/
theorem test_decode_mov64Imm : decodeTableWord 64 0xfffffffe000001b7 = some (.mov64Imm 1 0xfffffffe) := by decide

/-- `mov64 r1, r2` (R156). -/
theorem test_decode_mov64Reg : decodeTableWord 64 0x00000000000021bf = some (.mov64Reg 1 2) := by decide

/-- `arsh64 r1, 63` (R157). -/
theorem test_decode_arsh64Imm : decodeTableWord 64 0x0000003f000001c7 = some (.arsh64Imm 1 0x3f) := by decide

/-- `arsh64 r1, r2` (R158). -/
theorem test_decode_arsh64Reg : decodeTableWord 64 0x00000000000021cf = some (.arsh64Reg 1 2) := by decide

/-- `add32 r1, 1` (R164). -/
theorem test_decode_add32Imm : decodeTableWord 64 0x0000000100000104 = some (.add32Imm 1 1) := by decide

/-- `add32 r1, r2` (R165). -/
theorem test_decode_add32Reg : decodeTableWord 64 0x000000000000210c = some (.add32Reg 1 2) := by decide

/-- `sub32 r1, 1` (R166). -/
theorem test_decode_sub32Imm : decodeTableWord 64 0x0000000100000114 = some (.sub32Imm 1 1) := by decide

/-- `sub32 r1, r2` (R167). -/
theorem test_decode_sub32Reg : decodeTableWord 64 0x000000000000211c = some (.sub32Reg 1 2) := by decide

/-- `mul32 r1, 65536` (R168). -/
theorem test_decode_mul32Imm : decodeTableWord 64 0x0001000000000124 = some (.mul32Imm 1 0x10000) := by decide

/-- `mul32 r1, r2` (R169). -/
theorem test_decode_mul32Reg : decodeTableWord 64 0x000000000000212c = some (.mul32Reg 1 2) := by decide

/-- `div32 r1, 2` (R170). -/
theorem test_decode_div32Imm : decodeTableWord 64 0x0000000200000134 = some (.div32Imm 1 2) := by decide

/-- `div32 r1, r2` (R171). -/
theorem test_decode_div32Reg : decodeTableWord 64 0x000000000000213c = some (.div32Reg 1 2) := by decide

/-- `or32 r1, 1` (R172). -/
theorem test_decode_or32Imm : decodeTableWord 64 0x0000000100000144 = some (.or32Imm 1 1) := by decide

/-- `or32 r1, r2` (R173). -/
theorem test_decode_or32Reg : decodeTableWord 64 0x000000000000214c = some (.or32Reg 1 2) := by decide

/-- `and32 r1, -1` (R174). -/
theorem test_decode_and32Imm : decodeTableWord 64 0xffffffff00000154 = some (.and32Imm 1 0xffffffff) := by decide

/-- `and32 r1, r2` (R175). -/
theorem test_decode_and32Reg : decodeTableWord 64 0x000000000000215c = some (.and32Reg 1 2) := by decide

/-- `lsh32 r1, 4` (R176). -/
theorem test_decode_lsh32Imm : decodeTableWord 64 0x0000000400000164 = some (.lsh32Imm 1 4) := by decide

/-- `lsh32 r1, r2` (R177). -/
theorem test_decode_lsh32Reg : decodeTableWord 64 0x000000000000216c = some (.lsh32Reg 1 2) := by decide

/-- `rsh32 r1, 1` (R178). -/
theorem test_decode_rsh32Imm : decodeTableWord 64 0x0000000100000174 = some (.rsh32Imm 1 1) := by decide

/-- `rsh32 r1, r2` (R179). -/
theorem test_decode_rsh32Reg : decodeTableWord 64 0x000000000000217c = some (.rsh32Reg 1 2) := by decide

/-- `neg32 r1` (R180). -/
theorem test_decode_neg32 : decodeTableWord 64 0x0000000000000184 = some (.neg32 1) := by decide

/-- `mod32 r1, 2` (R181). -/
theorem test_decode_mod32Imm : decodeTableWord 64 0x0000000200000194 = some (.mod32Imm 1 2) := by decide

/-- `mod32 r1, r2` (R182). -/
theorem test_decode_mod32Reg : decodeTableWord 64 0x000000000000219c = some (.mod32Reg 1 2) := by decide

/-- `xor32 r1, -1` (R183). -/
theorem test_decode_xor32Imm : decodeTableWord 64 0xffffffff000001a4 = some (.xor32Imm 1 0xffffffff) := by decide

/-- `xor32 r1, r2` (R184). -/
theorem test_decode_xor32Reg : decodeTableWord 64 0x00000000000021ac = some (.xor32Reg 1 2) := by decide

/-- `mov32 r1, -1` (R185). -/
theorem test_decode_mov32Imm : decodeTableWord 64 0xffffffff000001b4 = some (.mov32Imm 1 0xffffffff) := by decide

/-- `mov32 r1, r2` (R186). -/
theorem test_decode_mov32Reg : decodeTableWord 64 0x00000000000021bc = some (.mov32Reg 1 2) := by decide

/-- `arsh32 r1, 1` (R187). -/
theorem test_decode_arsh32Imm : decodeTableWord 64 0x00000001000001c4 = some (.arsh32Imm 1 1) := by decide

/-- `arsh32 r1, r2` (R188). -/
theorem test_decode_arsh32Reg : decodeTableWord 64 0x00000000000021cc = some (.arsh32Reg 1 2) := by decide

/-- `le16 r1` (R261). -/
theorem test_decode_le : decodeTableWord 64 0x00000010000001d4 = some (.le 1 0x10) := by decide

/-- `be16 r1` (R262). -/
theorem test_decode_be : decodeTableWord 64 0x00000010000001dc = some (.be 1 0x10) := by decide

/-- `ja +0` (R194). -/
theorem test_decode_ja : decodeTableWord 64 0x0000000000000005 = some (.ja 0) := by decide

/-- `jeq r1, 5, +2` (R195). -/
theorem test_decode_jeqImm : decodeTableWord 64 0x0000000500020115 = some (.jeqImm 1 5 2) := by decide

/-- `jeq r1, r2, +2` (R196). -/
theorem test_decode_jeqReg : decodeTableWord 64 0x000000000002211d = some (.jeqReg 1 2 2) := by decide

/-- `jgt r1, 5, +2` (R197). -/
theorem test_decode_jgtImm : decodeTableWord 64 0x0000000500020125 = some (.jgtImm 1 5 2) := by decide

/-- `jgt r1, r2, +2` (R198). -/
theorem test_decode_jgtReg : decodeTableWord 64 0x000000000002212d = some (.jgtReg 1 2 2) := by decide

/-- `jge r1, 5, +2` (R199). -/
theorem test_decode_jgeImm : decodeTableWord 64 0x0000000500020135 = some (.jgeImm 1 5 2) := by decide

/-- `jge r1, r2, +2` (R200). -/
theorem test_decode_jgeReg : decodeTableWord 64 0x000000000002213d = some (.jgeReg 1 2 2) := by decide

/-- `jset r1, 2, +2` (R201). -/
theorem test_decode_jsetImm : decodeTableWord 64 0x0000000200020145 = some (.jsetImm 1 2 2) := by decide

/-- `jset r1, r2, +2` (R202). -/
theorem test_decode_jsetReg : decodeTableWord 64 0x000000000002214d = some (.jsetReg 1 2 2) := by decide

/-- `jne r1, 6, +2` (R203). -/
theorem test_decode_jneImm : decodeTableWord 64 0x0000000600020155 = some (.jneImm 1 6 2) := by decide

/-- `jne r1, r2, +2` (R204). -/
theorem test_decode_jneReg : decodeTableWord 64 0x000000000002215d = some (.jneReg 1 2 2) := by decide

/-- `jsgt r1, -1, +2` (R205). -/
theorem test_decode_jsgtImm : decodeTableWord 64 0xffffffff00020165 = some (.jsgtImm 1 0xffffffff 2) := by decide

/-- `jsgt r1, r2, +2` (R206). -/
theorem test_decode_jsgtReg : decodeTableWord 64 0x000000000002216d = some (.jsgtReg 1 2 2) := by decide

/-- `jsge r1, -1, +2` (R207). -/
theorem test_decode_jsgeImm : decodeTableWord 64 0xffffffff00020175 = some (.jsgeImm 1 0xffffffff 2) := by decide

/-- `jsge r1, r2, +2` (R208). -/
theorem test_decode_jsgeReg : decodeTableWord 64 0x000000000002217d = some (.jsgeReg 1 2 2) := by decide

/-- `jlt r1, 5, +2` (R209). -/
theorem test_decode_jltImm : decodeTableWord 64 0x00000005000201a5 = some (.jltImm 1 5 2) := by decide

/-- `jlt r1, r2, +2` (R210). -/
theorem test_decode_jltReg : decodeTableWord 64 0x00000000000221ad = some (.jltReg 1 2 2) := by decide

/-- `jle r1, 5, +2` (R211). -/
theorem test_decode_jleImm : decodeTableWord 64 0x00000005000201b5 = some (.jleImm 1 5 2) := by decide

/-- `jle r1, r2, +2` (R212). -/
theorem test_decode_jleReg : decodeTableWord 64 0x00000000000221bd = some (.jleReg 1 2 2) := by decide

/-- `jslt r1, 0, +2` (R213). -/
theorem test_decode_jsltImm : decodeTableWord 64 0x00000000000201c5 = some (.jsltImm 1 0 2) := by decide

/-- `jslt r1, r2, +2` (R214). -/
theorem test_decode_jsltReg : decodeTableWord 64 0x00000000000221cd = some (.jsltReg 1 2 2) := by decide

/-- `jsle r1, -5, +2` (R215). -/
theorem test_decode_jsleImm : decodeTableWord 64 0xfffffffb000201d5 = some (.jsleImm 1 0xfffffffb 2) := by decide

/-- `jsle r1, r2, +2` (R216). -/
theorem test_decode_jsleReg : decodeTableWord 64 0x00000000000221dd = some (.jsleReg 1 2 2) := by decide

/-- `call 1` (R221). -/
theorem test_decode_call : decodeTableWord 64 0x0000000100000085 = some (.call 1) := by decide

/-- `exit` (R223). -/
theorem test_decode_exit : decodeTableWord 64 0x0000000000000095 = some (.exit) := by decide

/-- `lddw r3, 0x200000001` (R231). -/
theorem test_decode_lddw : decode ([0x18, 0x03, 0x00, 0x00, 0x01, 0x00, 0x00, 0x00] ++
    [0x00, 0x00, 0x00, 0x00, 0x02, 0x00, 0x00, 0x00]) = .ok (.lddw 3 1 2, []) := by decide

/-- `ldabsw 0x10` (R232). -/
theorem test_decode_ldabsw : decodeTableWord 64 0x0000001000000020 = some (.ldabsw 0x10) := by decide

/-- `ldabsh 0x10` (R233). -/
theorem test_decode_ldabsh : decodeTableWord 64 0x0000001000000028 = some (.ldabsh 0x10) := by decide

/-- `ldabsb 0x10` (R234). -/
theorem test_decode_ldabsb : decodeTableWord 64 0x0000001000000030 = some (.ldabsb 0x10) := by decide

/-- `ldabsdw 0x10` (R235). -/
theorem test_decode_ldabsdw : decodeTableWord 64 0x0000001000000038 = some (.ldabsdw 0x10) := by decide

/-- `ldindw r2, 4` (R236). -/
theorem test_decode_ldindw : decodeTableWord 64 0x0000000400002040 = some (.ldindw 2 4) := by decide

/-- `ldindh r2, 4` (R237). -/
theorem test_decode_ldindh : decodeTableWord 64 0x0000000400002048 = some (.ldindh 2 4) := by decide

/-- `ldindb r2, 4` (R238). -/
theorem test_decode_ldindb : decodeTableWord 64 0x0000000400002050 = some (.ldindb 2 4) := by decide

/-- `ldinddw r2, 4` (R239). -/
theorem test_decode_ldinddw : decodeTableWord 64 0x0000000400002058 = some (.ldinddw 2 4) := by decide

/-- `ldxw r3, [r1+16]` (R240). -/
theorem test_decode_ldxw : decodeTableWord 64 0x0000000000101361 = some (.ldxw 3 1 0x10) := by decide

/-- `ldxh r3, [r1+16]` (R241). -/
theorem test_decode_ldxh : decodeTableWord 64 0x0000000000101369 = some (.ldxh 3 1 0x10) := by decide

/-- `ldxb r3, [r1+16]` (R242). -/
theorem test_decode_ldxb : decodeTableWord 64 0x0000000000101371 = some (.ldxb 3 1 0x10) := by decide

/-- `ldxdw r3, [r1+16]` (R243). -/
theorem test_decode_ldxdw : decodeTableWord 64 0x0000000000101379 = some (.ldxdw 3 1 0x10) := by decide

/-- `stw [r1+32], 0x11223344` (R244). -/
theorem test_decode_stw : decodeTableWord 64 0x1122334400200162 = some (.stw 1 0x20 0x11223344) := by decide

/-- `sth [r1+32], 0x11223344` (R245). -/
theorem test_decode_sth : decodeTableWord 64 0x112233440020016a = some (.sth 1 0x20 0x11223344) := by decide

/-- `stb [r1+32], 0x11223344` (R246). -/
theorem test_decode_stb : decodeTableWord 64 0x1122334400200172 = some (.stb 1 0x20 0x11223344) := by decide

/-- `stdw [r1+32], 0x11223344` (R247). -/
theorem test_decode_stdw : decodeTableWord 64 0x112233440020017a = some (.stdw 1 0x20 0x11223344) := by decide

/-- `stxw [r1+32], r2` (R248). -/
theorem test_decode_stxw : decodeTableWord 64 0x0000000000202163 = some (.stxw 1 0x20 2) := by decide

/-- `stxh [r1+32], r2` (R249). -/
theorem test_decode_stxh : decodeTableWord 64 0x000000000020216b = some (.stxh 1 0x20 2) := by decide

/-- `stxb [r1+32], r2` (R250). -/
theorem test_decode_stxb : decodeTableWord 64 0x0000000000202173 = some (.stxb 1 0x20 2) := by decide

/-- `stxdw [r1+32], r2` (R251). -/
theorem test_decode_stxdw : decodeTableWord 64 0x000000000020217b = some (.stxdw 1 0x20 2) := by decide

/-- Ignored fields may hold anything: `src = 15` and `off = -1` of a byte swap, the last example of R261. -/
theorem test_decode_ignores_fields : decodeTableWord 64 0x00000020fffff1d4 = some (.le 1 32) := by decide

/-- `0x8f` and `0x8c` stand where a negate with a register would; both are unknown (R88, R89). -/
theorem test_decode_refuses_unknown : decodeTableWord 64 0x8f = none ∧ decodeTableWord 64 0x8c = none := by decide

/-- An `lddw` without its second slot, and a list with no slot (R80, R121). -/
theorem test_decode_refuses_short : decode [0x18, 0, 0, 0, 1, 0, 0, 0] = .error .noSecondSlot ∧
    decode [0x95, 0, 0] = .error .noSlot := by decide

/-- Placing a word makes it the first instruction after reset: `mov64 r1, 10`. -/
theorem test_withFetchWord : (after (State.reset.withFetchWord 64 0x0000000a000001b7)).reg .r1 = 10 := by decide

/-! ### Single steps: the worked examples -/

/-- The example of R134. -/
theorem test_step_add64Imm :
    (after (state [(.r1, 0x0000000000000005)] [0x07, 0x01, 0x00, 0x00, 0xff, 0xff, 0xff, 0xff])).reg .r1 = 0x0000000000000004 := by decide

/-- The example of R135. -/
theorem test_step_add64Reg :
    (after (state [(.r1, 0xffffffffffffffff), (.r2, 0x0000000000000001)] [0x0f, 0x21, 0x00, 0x00, 0x00, 0x00, 0x00, 0x00])).reg .r1 = 0x0000000000000000 := by decide

/-- The example of R136. -/
theorem test_step_sub64Imm :
    (after (state [(.r1, 0x0000000000000000)] [0x17, 0x01, 0x00, 0x00, 0x01, 0x00, 0x00, 0x00])).reg .r1 = 0xffffffffffffffff := by decide

/-- The example of R137. -/
theorem test_step_sub64Reg :
    (after (state [(.r1, 0x000000000000000a), (.r2, 0x0000000000000003)] [0x1f, 0x21, 0x00, 0x00, 0x00, 0x00, 0x00, 0x00])).reg .r1 = 0x0000000000000007 := by decide

/-- The example of R138. -/
theorem test_step_mul64Imm :
    (after (state [(.r1, 0x0000000000000007)] [0x27, 0x01, 0x00, 0x00, 0xff, 0xff, 0xff, 0xff])).reg .r1 = 0xfffffffffffffff9 := by decide

/-- The example of R139. -/
theorem test_step_mul64Reg :
    (after (state [(.r1, 0x0000000100000000), (.r2, 0x0000000100000000)] [0x2f, 0x21, 0x00, 0x00, 0x00, 0x00, 0x00, 0x00])).reg .r1 = 0x0000000000000000 := by decide

/-- The example of R140. -/
theorem test_step_div64Imm :
    (after (state [(.r1, 0xffffffffffffffff)] [0x37, 0x01, 0x00, 0x00, 0x02, 0x00, 0x00, 0x00])).reg .r1 = 0x7fffffffffffffff := by decide

/-- The example of R141. -/
theorem test_step_div64Reg :
    (after (state [(.r1, 0x0000000000000064), (.r2, 0x0000000000000007)] [0x3f, 0x21, 0x00, 0x00, 0x00, 0x00, 0x00, 0x00])).reg .r1 = 0x000000000000000e := by decide

/-- The example of R142. -/
theorem test_step_or64Imm :
    (after (state [(.r1, 0x0000000000000001)] [0x47, 0x01, 0x00, 0x00, 0x00, 0x00, 0x00, 0x80])).reg .r1 = 0xffffffff80000001 := by decide

/-- The example of R143. -/
theorem test_step_or64Reg :
    (after (state [(.r1, 0x00000000000000f0), (.r2, 0x000000000000000f)] [0x4f, 0x21, 0x00, 0x00, 0x00, 0x00, 0x00, 0x00])).reg .r1 = 0x00000000000000ff := by decide

/-- The example of R144. -/
theorem test_step_and64Imm :
    (after (state [(.r1, 0x123456789abcdef0)] [0x57, 0x01, 0x00, 0x00, 0xff, 0xff, 0xff, 0x7f])).reg .r1 = 0x000000001abcdef0 := by decide

/-- The example of R145. -/
theorem test_step_and64Reg :
    (after (state [(.r1, 0x000000000000ff00), (.r2, 0x0000000000000ff0)] [0x5f, 0x21, 0x00, 0x00, 0x00, 0x00, 0x00, 0x00])).reg .r1 = 0x0000000000000f00 := by decide

/-- The example of R146. -/
theorem test_step_lsh64Imm :
    (after (state [(.r1, 0x0000000000000001)] [0x67, 0x01, 0x00, 0x00, 0x3f, 0x00, 0x00, 0x00])).reg .r1 = 0x8000000000000000 := by decide

/-- The example of R147. -/
theorem test_step_lsh64Reg :
    (after (state [(.r1, 0x8000000000000001), (.r2, 0x0000000000000041)] [0x6f, 0x21, 0x00, 0x00, 0x00, 0x00, 0x00, 0x00])).reg .r1 = 0x0000000000000002 := by decide

/-- The example of R148. -/
theorem test_step_rsh64Imm :
    (after (state [(.r1, 0x8000000000000000)] [0x77, 0x01, 0x00, 0x00, 0x3f, 0x00, 0x00, 0x00])).reg .r1 = 0x0000000000000001 := by decide

/-- The example of R149. -/
theorem test_step_rsh64Reg :
    (after (state [(.r1, 0xffffffffffffffff), (.r2, 0x0000000000000044)] [0x7f, 0x21, 0x00, 0x00, 0x00, 0x00, 0x00, 0x00])).reg .r1 = 0x0fffffffffffffff := by decide

/-- The example of R150. -/
theorem test_step_neg64 :
    (after (state [(.r1, 0x0000000000000001)] [0x87, 0x01, 0x00, 0x00, 0x00, 0x00, 0x00, 0x00])).reg .r1 = 0xffffffffffffffff := by decide

/-- The example of R151. -/
theorem test_step_mod64Imm :
    (after (state [(.r1, 0x0000000000000064)] [0x97, 0x01, 0x00, 0x00, 0x07, 0x00, 0x00, 0x00])).reg .r1 = 0x0000000000000002 := by decide

/-- The example of R152. -/
theorem test_step_mod64Reg :
    (after (state [(.r1, 0xffffffffffffffff), (.r2, 0x0000000100000000)] [0x9f, 0x21, 0x00, 0x00, 0x00, 0x00, 0x00, 0x00])).reg .r1 = 0x00000000ffffffff := by decide

/-- The example of R153. -/
theorem test_step_xor64Imm :
    (after (state [(.r1, 0x0000000000000f0f)] [0xa7, 0x01, 0x00, 0x00, 0xff, 0xff, 0xff, 0xff])).reg .r1 = 0xfffffffffffff0f0 := by decide

/-- The example of R154. -/
theorem test_step_xor64Reg :
    (after (state [(.r1, 0x00000000000000ff), (.r2, 0x000000000000000f)] [0xaf, 0x21, 0x00, 0x00, 0x00, 0x00, 0x00, 0x00])).reg .r1 = 0x00000000000000f0 := by decide

/-- The example of R155. -/
theorem test_step_mov64Imm :
    (after (state [(.r1, 0x000000000000007b)] [0xb7, 0x01, 0x00, 0x00, 0xfe, 0xff, 0xff, 0xff])).reg .r1 = 0xfffffffffffffffe := by decide

/-- The example of R156. -/
theorem test_step_mov64Reg :
    (after (state [(.r1, 0x0000000000000000), (.r2, 0xdeadbeefcafef00d)] [0xbf, 0x21, 0x00, 0x00, 0x00, 0x00, 0x00, 0x00])).reg .r1 = 0xdeadbeefcafef00d := by decide

/-- The example of R157. -/
theorem test_step_arsh64Imm :
    (after (state [(.r1, 0x8000000000000000)] [0xc7, 0x01, 0x00, 0x00, 0x3f, 0x00, 0x00, 0x00])).reg .r1 = 0xffffffffffffffff := by decide

/-- The example of R158. -/
theorem test_step_arsh64Reg :
    (after (state [(.r1, 0xfffffffffffffff8), (.r2, 0x0000000000000001)] [0xcf, 0x21, 0x00, 0x00, 0x00, 0x00, 0x00, 0x00])).reg .r1 = 0xfffffffffffffffc := by decide

/-- The example of R164. -/
theorem test_step_add32Imm :
    (after (state [(.r1, 0xaaaaaaaaffffffff)] [0x04, 0x01, 0x00, 0x00, 0x01, 0x00, 0x00, 0x00])).reg .r1 = 0x0000000000000000 := by decide

/-- The example of R165. -/
theorem test_step_add32Reg :
    (after (state [(.r1, 0x00000001ffffffff), (.r2, 0x0000000300000002)] [0x0c, 0x21, 0x00, 0x00, 0x00, 0x00, 0x00, 0x00])).reg .r1 = 0x0000000000000001 := by decide

/-- The example of R166. -/
theorem test_step_sub32Imm :
    (after (state [(.r1, 0x0000000000000000)] [0x14, 0x01, 0x00, 0x00, 0x01, 0x00, 0x00, 0x00])).reg .r1 = 0x00000000ffffffff := by decide

/-- The example of R167. -/
theorem test_step_sub32Reg :
    (after (state [(.r1, 0x0000000500000000), (.r2, 0x0000000000000001)] [0x1c, 0x21, 0x00, 0x00, 0x00, 0x00, 0x00, 0x00])).reg .r1 = 0x00000000ffffffff := by decide

/-- The example of R168. -/
theorem test_step_mul32Imm :
    (after (state [(.r1, 0x0000000000010000)] [0x24, 0x01, 0x00, 0x00, 0x00, 0x00, 0x01, 0x00])).reg .r1 = 0x0000000000000000 := by decide

/-- The example of R169. -/
theorem test_step_mul32Reg :
    (after (state [(.r1, 0x00000000ffffffff), (.r2, 0x00000000ffffffff)] [0x2c, 0x21, 0x00, 0x00, 0x00, 0x00, 0x00, 0x00])).reg .r1 = 0x0000000000000001 := by decide

/-- The example of R170. -/
theorem test_step_div32Imm :
    (after (state [(.r1, 0x0000000100000000)] [0x34, 0x01, 0x00, 0x00, 0x02, 0x00, 0x00, 0x00])).reg .r1 = 0x0000000080000000 := by decide

/-- The example of R171. -/
theorem test_step_div32Reg :
    (after (state [(.r1, 0x0000000300000000), (.r2, 0x0000000100000000)] [0x3c, 0x21, 0x00, 0x00, 0x00, 0x00, 0x00, 0x00])).reg .r1 = 0x0000000000000003 := by decide

/-- The example of R172. -/
theorem test_step_or32Imm :
    (after (state [(.r1, 0xffffffff00000000)] [0x44, 0x01, 0x00, 0x00, 0x01, 0x00, 0x00, 0x00])).reg .r1 = 0x0000000000000001 := by decide

/-- The example of R173. -/
theorem test_step_or32Reg :
    (after (state [(.r1, 0x0000001200000000), (.r2, 0x0000000000000034)] [0x4c, 0x21, 0x00, 0x00, 0x00, 0x00, 0x00, 0x00])).reg .r1 = 0x0000000000000034 := by decide

/-- The example of R174. -/
theorem test_step_and32Imm :
    (after (state [(.r1, 0xffffffffffffffff)] [0x54, 0x01, 0x00, 0x00, 0xff, 0xff, 0xff, 0xff])).reg .r1 = 0x00000000ffffffff := by decide

/-- The example of R175. -/
theorem test_step_and32Reg :
    (after (state [(.r1, 0xffffffff12345678), (.r2, 0x0000000fffffffff)] [0x5c, 0x21, 0x00, 0x00, 0x00, 0x00, 0x00, 0x00])).reg .r1 = 0x0000000012345678 := by decide

/-- The example of R176. -/
theorem test_step_lsh32Imm :
    (after (state [(.r1, 0x00000000ffffffff)] [0x64, 0x01, 0x00, 0x00, 0x04, 0x00, 0x00, 0x00])).reg .r1 = 0x00000000fffffff0 := by decide

/-- The example of R177. -/
theorem test_step_lsh32Reg :
    (after (state [(.r1, 0x0000000000000001), (.r2, 0x0000000000000028)] [0x6c, 0x21, 0x00, 0x00, 0x00, 0x00, 0x00, 0x00])).reg .r1 = 0x0000000000000000 := by decide

/-- The example of R178. -/
theorem test_step_rsh32Imm :
    (after (state [(.r1, 0x0000000100000000)] [0x74, 0x01, 0x00, 0x00, 0x01, 0x00, 0x00, 0x00])).reg .r1 = 0x0000000080000000 := by decide

/-- The example of R179. -/
theorem test_step_rsh32Reg :
    (after (state [(.r1, 0xffffffff00000000), (.r2, 0x0000000000000020)] [0x7c, 0x21, 0x00, 0x00, 0x00, 0x00, 0x00, 0x00])).reg .r1 = 0x00000000ffffffff := by decide

/-- The example of R180. -/
theorem test_step_neg32 :
    (after (state [(.r1, 0x0000000000000001)] [0x84, 0x01, 0x00, 0x00, 0x00, 0x00, 0x00, 0x00])).reg .r1 = 0x00000000ffffffff := by decide

/-- The example of R181. -/
theorem test_step_mod32Imm :
    (after (state [(.r1, 0x0000000100000003)] [0x94, 0x01, 0x00, 0x00, 0x02, 0x00, 0x00, 0x00])).reg .r1 = 0x0000000000000001 := by decide

/-- The example of R182. -/
theorem test_step_mod32Reg :
    (after (state [(.r1, 0x0000000100000003), (.r2, 0x0000000100000000)] [0x9c, 0x21, 0x00, 0x00, 0x00, 0x00, 0x00, 0x00])).reg .r1 = 0x0000000000000003 := by decide

/-- The example of R183. -/
theorem test_step_xor32Imm :
    (after (state [(.r1, 0xffffffff0000ffff)] [0xa4, 0x01, 0x00, 0x00, 0xff, 0xff, 0xff, 0xff])).reg .r1 = 0x00000000ffff0000 := by decide

/-- The example of R184. -/
theorem test_step_xor32Reg :
    (after (state [(.r1, 0x00000001ffffffff), (.r2, 0x0000000100000000)] [0xac, 0x21, 0x00, 0x00, 0x00, 0x00, 0x00, 0x00])).reg .r1 = 0x00000000ffffffff := by decide

/-- The example of R185. -/
theorem test_step_mov32Imm :
    (after (state [(.r1, 0x000000000000004d)] [0xb4, 0x01, 0x00, 0x00, 0xff, 0xff, 0xff, 0xff])).reg .r1 = 0x00000000ffffffff := by decide

/-- The example of R186. -/
theorem test_step_mov32Reg :
    (after (state [(.r1, 0x0000000000000000), (.r2, 0x1122334455667788)] [0xbc, 0x21, 0x00, 0x00, 0x00, 0x00, 0x00, 0x00])).reg .r1 = 0x0000000055667788 := by decide

/-- The example of R187. -/
theorem test_step_arsh32Imm :
    (after (state [(.r1, 0x0000000080000000)] [0xc4, 0x01, 0x00, 0x00, 0x01, 0x00, 0x00, 0x00])).reg .r1 = 0x0000000040000000 := by decide

/-- The example of R188. -/
theorem test_step_arsh32Reg :
    (after (state [(.r1, 0x8000000000000000), (.r2, 0x0000000000000020)] [0xcc, 0x21, 0x00, 0x00, 0x00, 0x00, 0x00, 0x00])).reg .r1 = 0x0000000080000000 := by decide

/-- The 32-bit and 16-bit examples of R261. -/
theorem test_step_le :
    (after (state [(.r1, 0x1122334455667788)] [0xd4, 0x01, 0x00, 0x00, 0x20, 0x00, 0x00, 0x00])).reg .r1 = 0x0000000055667788 ∧
    (after (state [(.r1, 0x1122334455667788)] [0xd4, 0x01, 0x00, 0x00, 0x10, 0x00, 0x00, 0x00])).reg .r1 = 0x0000000000007788 := by decide

/-- Width 8 ends the run and leaves the register (R261). -/
theorem test_fault_le :
    after (state [(.r1, 5)] [0xd4, 0x01, 0, 0, 8, 0, 0, 0]) =
      { state [(.r1, 5)] [0xd4, 0x01, 0, 0, 8, 0, 0, 0] with status := .fault (.invalidSwapWidth 8) } := by decide

/-- The 32-bit and 16-bit examples of R262. -/
theorem test_step_be :
    (after (state [(.r1, 0x1122334455667788)] [0xdc, 0x01, 0x00, 0x00, 0x20, 0x00, 0x00, 0x00])).reg .r1 = 0x0000000088776655 ∧
    (after (state [(.r1, 0x1122334455667788)] [0xdc, 0x01, 0x00, 0x00, 0x10, 0x00, 0x00, 0x00])).reg .r1 = 0x0000000000008877 := by decide

/-- Width 8 ends the run and leaves the register (R262). -/
theorem test_fault_be :
    after (state [(.r1, 5)] [0xdc, 0x01, 0, 0, 8, 0, 0, 0]) =
      { state [(.r1, 5)] [0xdc, 0x01, 0, 0, 8, 0, 0, 0] with status := .fault (.invalidSwapWidth 8) } := by decide

/-- The examples of R194. -/
theorem test_step_ja :
    (after (stateAt3 [] [0x05, 0x00, 0x00, 0x00, 0x00, 0x00, 0x00, 0x00])).pc = 4 ∧
    (after (stateAt3 [] [0x05, 0x00, 0xff, 0xff, 0x00, 0x00, 0x00, 0x00])).pc = 3 ∧
    (after (stateAt3 [] [0x05, 0x00, 0x02, 0x00, 0x00, 0x00, 0x00, 0x00])).pc = 6 ∧
    (after (stateAt3 [] [0x05, 0x00, 0xfc, 0xff, 0x00, 0x00, 0x00, 0x00])).pc = 0 := by decide

/-- The taken and the untaken example of R195. -/
theorem test_step_jeqImm :
    (after (stateAt3 [(.r1, 0x0000000000000005)] [0x15, 0x01, 0x02, 0x00, 0x05, 0x00, 0x00, 0x00])).pc = 6 ∧
    (after (stateAt3 [(.r1, 0x0000000000000005)] [0x15, 0x01, 0x02, 0x00, 0x06, 0x00, 0x00, 0x00])).pc = 4 := by decide

/-- The taken and the untaken example of R196. -/
theorem test_step_jeqReg :
    (after (stateAt3 [(.r1, 0x0000000000000007), (.r2, 0x0000000000000007)] [0x1d, 0x21, 0x02, 0x00, 0x00, 0x00, 0x00, 0x00])).pc = 6 ∧
    (after (stateAt3 [(.r1, 0x0000000000000007), (.r2, 0x0000000000000008)] [0x1d, 0x21, 0x02, 0x00, 0x00, 0x00, 0x00, 0x00])).pc = 4 := by decide

/-- The taken and the untaken example of R197. -/
theorem test_step_jgtImm :
    (after (stateAt3 [(.r1, 0x0000000000000006)] [0x25, 0x01, 0x02, 0x00, 0x05, 0x00, 0x00, 0x00])).pc = 6 ∧
    (after (stateAt3 [(.r1, 0x0000000000000005)] [0x25, 0x01, 0x02, 0x00, 0x05, 0x00, 0x00, 0x00])).pc = 4 := by decide

/-- The taken and the untaken example of R198. -/
theorem test_step_jgtReg :
    (after (stateAt3 [(.r1, 0xffffffffffffffff), (.r2, 0x0000000000000001)] [0x2d, 0x21, 0x02, 0x00, 0x00, 0x00, 0x00, 0x00])).pc = 6 ∧
    (after (stateAt3 [(.r1, 0x0000000000000001), (.r2, 0xffffffffffffffff)] [0x2d, 0x21, 0x02, 0x00, 0x00, 0x00, 0x00, 0x00])).pc = 4 := by decide

/-- The taken and the untaken example of R199. -/
theorem test_step_jgeImm :
    (after (stateAt3 [(.r1, 0x0000000000000005)] [0x35, 0x01, 0x02, 0x00, 0x05, 0x00, 0x00, 0x00])).pc = 6 ∧
    (after (stateAt3 [(.r1, 0x0000000000000004)] [0x35, 0x01, 0x02, 0x00, 0x05, 0x00, 0x00, 0x00])).pc = 4 := by decide

/-- The taken and the untaken example of R200. -/
theorem test_step_jgeReg :
    (after (stateAt3 [(.r1, 0x8000000000000000), (.r2, 0x7fffffffffffffff)] [0x3d, 0x21, 0x02, 0x00, 0x00, 0x00, 0x00, 0x00])).pc = 6 ∧
    (after (stateAt3 [(.r1, 0x0000000000000000), (.r2, 0x0000000000000001)] [0x3d, 0x21, 0x02, 0x00, 0x00, 0x00, 0x00, 0x00])).pc = 4 := by decide

/-- The taken and the untaken example of R201. -/
theorem test_step_jsetImm :
    (after (stateAt3 [(.r1, 0x0000000000000006)] [0x45, 0x01, 0x02, 0x00, 0x02, 0x00, 0x00, 0x00])).pc = 6 ∧
    (after (stateAt3 [(.r1, 0x0000000000000005)] [0x45, 0x01, 0x02, 0x00, 0x02, 0x00, 0x00, 0x00])).pc = 4 := by decide

/-- The taken and the untaken example of R202. -/
theorem test_step_jsetReg :
    (after (stateAt3 [(.r1, 0x8000000000000000), (.r2, 0x8000000000000000)] [0x4d, 0x21, 0x02, 0x00, 0x00, 0x00, 0x00, 0x00])).pc = 6 ∧
    (after (stateAt3 [(.r1, 0x00000000000000f0), (.r2, 0x000000000000000f)] [0x4d, 0x21, 0x02, 0x00, 0x00, 0x00, 0x00, 0x00])).pc = 4 := by decide

/-- The taken and the untaken example of R203. -/
theorem test_step_jneImm :
    (after (stateAt3 [(.r1, 0x0000000000000005)] [0x55, 0x01, 0x02, 0x00, 0x06, 0x00, 0x00, 0x00])).pc = 6 ∧
    (after (stateAt3 [(.r1, 0x0000000000000005)] [0x55, 0x01, 0x02, 0x00, 0x05, 0x00, 0x00, 0x00])).pc = 4 := by decide

/-- The taken and the untaken example of R204. -/
theorem test_step_jneReg :
    (after (stateAt3 [(.r1, 0x0000000000000007), (.r2, 0x0000000000000008)] [0x5d, 0x21, 0x02, 0x00, 0x00, 0x00, 0x00, 0x00])).pc = 6 ∧
    (after (stateAt3 [(.r1, 0x0000000000000007), (.r2, 0x0000000000000007)] [0x5d, 0x21, 0x02, 0x00, 0x00, 0x00, 0x00, 0x00])).pc = 4 := by decide

/-- The taken and the untaken example of R205. -/
theorem test_step_jsgtImm :
    (after (stateAt3 [(.r1, 0x0000000000000000)] [0x65, 0x01, 0x02, 0x00, 0xff, 0xff, 0xff, 0xff])).pc = 6 ∧
    (after (stateAt3 [(.r1, 0xffffffffffffffff)] [0x65, 0x01, 0x02, 0x00, 0x00, 0x00, 0x00, 0x00])).pc = 4 := by decide

/-- The taken and the untaken example of R206. -/
theorem test_step_jsgtReg :
    (after (stateAt3 [(.r1, 0x7fffffffffffffff), (.r2, 0x8000000000000000)] [0x6d, 0x21, 0x02, 0x00, 0x00, 0x00, 0x00, 0x00])).pc = 6 ∧
    (after (stateAt3 [(.r1, 0x8000000000000000), (.r2, 0x0000000000000000)] [0x6d, 0x21, 0x02, 0x00, 0x00, 0x00, 0x00, 0x00])).pc = 4 := by decide

/-- The taken and the untaken example of R207. -/
theorem test_step_jsgeImm :
    (after (stateAt3 [(.r1, 0xffffffffffffffff)] [0x75, 0x01, 0x02, 0x00, 0xff, 0xff, 0xff, 0xff])).pc = 6 ∧
    (after (stateAt3 [(.r1, 0xfffffffffffffffe)] [0x75, 0x01, 0x02, 0x00, 0xff, 0xff, 0xff, 0xff])).pc = 4 := by decide

/-- The taken and the untaken example of R208. -/
theorem test_step_jsgeReg :
    (after (stateAt3 [(.r1, 0x0000000000000000), (.r2, 0xffffffffffffffff)] [0x7d, 0x21, 0x02, 0x00, 0x00, 0x00, 0x00, 0x00])).pc = 6 ∧
    (after (stateAt3 [(.r1, 0x8000000000000000), (.r2, 0x8000000000000001)] [0x7d, 0x21, 0x02, 0x00, 0x00, 0x00, 0x00, 0x00])).pc = 4 := by decide

/-- The taken and the untaken example of R209. -/
theorem test_step_jltImm :
    (after (stateAt3 [(.r1, 0x0000000000000004)] [0xa5, 0x01, 0x02, 0x00, 0x05, 0x00, 0x00, 0x00])).pc = 6 ∧
    (after (stateAt3 [(.r1, 0x0000000000000005)] [0xa5, 0x01, 0x02, 0x00, 0x05, 0x00, 0x00, 0x00])).pc = 4 := by decide

/-- The taken and the untaken example of R210. -/
theorem test_step_jltReg :
    (after (stateAt3 [(.r1, 0x0000000000000001), (.r2, 0xffffffffffffffff)] [0xad, 0x21, 0x02, 0x00, 0x00, 0x00, 0x00, 0x00])).pc = 6 ∧
    (after (stateAt3 [(.r1, 0xffffffffffffffff), (.r2, 0x0000000000000001)] [0xad, 0x21, 0x02, 0x00, 0x00, 0x00, 0x00, 0x00])).pc = 4 := by decide

/-- The taken and the untaken example of R211. -/
theorem test_step_jleImm :
    (after (stateAt3 [(.r1, 0x0000000000000005)] [0xb5, 0x01, 0x02, 0x00, 0x05, 0x00, 0x00, 0x00])).pc = 6 ∧
    (after (stateAt3 [(.r1, 0x0000000000000006)] [0xb5, 0x01, 0x02, 0x00, 0x05, 0x00, 0x00, 0x00])).pc = 4 := by decide

/-- The taken and the untaken example of R212. -/
theorem test_step_jleReg :
    (after (stateAt3 [(.r1, 0x0000000000000000), (.r2, 0x0000000000000000)] [0xbd, 0x21, 0x02, 0x00, 0x00, 0x00, 0x00, 0x00])).pc = 6 ∧
    (after (stateAt3 [(.r1, 0x8000000000000000), (.r2, 0x7fffffffffffffff)] [0xbd, 0x21, 0x02, 0x00, 0x00, 0x00, 0x00, 0x00])).pc = 4 := by decide

/-- The taken and the untaken example of R213. -/
theorem test_step_jsltImm :
    (after (stateAt3 [(.r1, 0xffffffffffffffff)] [0xc5, 0x01, 0x02, 0x00, 0x00, 0x00, 0x00, 0x00])).pc = 6 ∧
    (after (stateAt3 [(.r1, 0x0000000000000000)] [0xc5, 0x01, 0x02, 0x00, 0xff, 0xff, 0xff, 0xff])).pc = 4 := by decide

/-- The taken and the untaken example of R214. -/
theorem test_step_jsltReg :
    (after (stateAt3 [(.r1, 0x8000000000000000), (.r2, 0x7fffffffffffffff)] [0xcd, 0x21, 0x02, 0x00, 0x00, 0x00, 0x00, 0x00])).pc = 6 ∧
    (after (stateAt3 [(.r1, 0x0000000000000005), (.r2, 0x0000000000000005)] [0xcd, 0x21, 0x02, 0x00, 0x00, 0x00, 0x00, 0x00])).pc = 4 := by decide

/-- The taken and the untaken example of R215. -/
theorem test_step_jsleImm :
    (after (stateAt3 [(.r1, 0xfffffffffffffffb)] [0xd5, 0x01, 0x02, 0x00, 0xfb, 0xff, 0xff, 0xff])).pc = 6 ∧
    (after (stateAt3 [(.r1, 0x0000000000000000)] [0xd5, 0x01, 0x02, 0x00, 0xff, 0xff, 0xff, 0xff])).pc = 4 := by decide

/-- The taken and the untaken example of R216. -/
theorem test_step_jsleReg :
    (after (stateAt3 [(.r1, 0xffffffffffffffff), (.r2, 0x0000000000000000)] [0xdd, 0x21, 0x02, 0x00, 0x00, 0x00, 0x00, 0x00])).pc = 6 ∧
    (after (stateAt3 [(.r1, 0x0000000000000001), (.r2, 0x0000000000000000)] [0xdd, 0x21, 0x02, 0x00, 0x00, 0x00, 0x00, 0x00])).pc = 4 := by decide

/-- The first example of R232. -/
theorem test_step_ldabsw :
    (after (withMemory (state [(.r0, 0xdeadbeefdeadbeef)] [0x20, 0x00, 0x00, 0x00, 0x10, 0x00, 0x00, 0x00]))).reg .r0 = 0x0000000055667788 := by decide

/-- The first example of R233. -/
theorem test_step_ldabsh :
    (after (withMemory (state [(.r0, 0xdeadbeefdeadbeef)] [0x28, 0x00, 0x00, 0x00, 0x10, 0x00, 0x00, 0x00]))).reg .r0 = 0x0000000000007788 := by decide

/-- The first example of R234. -/
theorem test_step_ldabsb :
    (after (withMemory (state [(.r0, 0xdeadbeefdeadbeef)] [0x30, 0x00, 0x00, 0x00, 0x10, 0x00, 0x00, 0x00]))).reg .r0 = 0x0000000000000088 := by decide

/-- The first example of R235. -/
theorem test_step_ldabsdw :
    (after (withMemory (state [(.r0, 0xdeadbeefdeadbeef)] [0x38, 0x00, 0x00, 0x00, 0x10, 0x00, 0x00, 0x00]))).reg .r0 = 0x1122334455667788 := by decide

/-- The first example of R236. -/
theorem test_step_ldindw :
    (after (withMemory (state [(.r2, 0x0c)] [0x40, 0x20, 0x00, 0x00, 0x04, 0x00, 0x00, 0x00]))).reg .r0 = 0x0000000055667788 := by decide

/-- The first example of R237. -/
theorem test_step_ldindh :
    (after (withMemory (state [(.r2, 0x0c)] [0x48, 0x20, 0x00, 0x00, 0x04, 0x00, 0x00, 0x00]))).reg .r0 = 0x0000000000007788 := by decide

/-- The first example of R238. -/
theorem test_step_ldindb :
    (after (withMemory (state [(.r2, 0x0c)] [0x50, 0x20, 0x00, 0x00, 0x04, 0x00, 0x00, 0x00]))).reg .r0 = 0x0000000000000088 := by decide

/-- The first example of R239. -/
theorem test_step_ldinddw :
    (after (withMemory (state [(.r2, 0x0c)] [0x58, 0x20, 0x00, 0x00, 0x04, 0x00, 0x00, 0x00]))).reg .r0 = 0x1122334455667788 := by decide

/-- The Address Space and the Stack example of R240. -/
theorem test_step_ldxw :
    (after (withMemory (state [(.r3, 0xdeadbeefdeadbeef)] [0x61, 0x13, 0x10, 0x00, 0x00, 0x00, 0x00, 0x00]))).reg .r3 = 0x0000000055667788 ∧
    (after (withMemory (state [] [0x61, 0xa4, 0xfc, 0xff, 0x00, 0x00, 0x00, 0x00]))).reg .r4 = 0x0000000001020304 := by decide

/-- The Address Space and the Stack example of R241. -/
theorem test_step_ldxh :
    (after (withMemory (state [(.r3, 0xdeadbeefdeadbeef)] [0x69, 0x13, 0x10, 0x00, 0x00, 0x00, 0x00, 0x00]))).reg .r3 = 0x0000000000007788 ∧
    (after (withMemory (state [] [0x69, 0xa4, 0xfe, 0xff, 0x00, 0x00, 0x00, 0x00]))).reg .r4 = 0x0000000000000102 := by decide

/-- The Address Space and the Stack example of R242. -/
theorem test_step_ldxb :
    (after (withMemory (state [(.r3, 0xdeadbeefdeadbeef)] [0x71, 0x13, 0x10, 0x00, 0x00, 0x00, 0x00, 0x00]))).reg .r3 = 0x0000000000000088 ∧
    (after (withMemory (state [] [0x71, 0xa4, 0xff, 0xff, 0x00, 0x00, 0x00, 0x00]))).reg .r4 = 0x0000000000000001 := by decide

/-- The Address Space and the Stack example of R243. -/
theorem test_step_ldxdw :
    (after (withMemory (state [(.r3, 0xdeadbeefdeadbeef)] [0x79, 0x13, 0x10, 0x00, 0x00, 0x00, 0x00, 0x00]))).reg .r3 = 0x1122334455667788 ∧
    (after (withMemory (state [] [0x79, 0xa4, 0xf8, 0xff, 0x00, 0x00, 0x00, 0x00]))).reg .r4 = 0x0102030405060708 := by decide

/-- The Address Space and the Stack example of R244. -/
theorem test_step_stw :
    (after (state [] [0x62, 0x01, 0x20, 0x00, 0x44, 0x33, 0x22, 0x11])).addressSpace = [(32, 0x44), (33, 0x33), (34, 0x22), (35, 0x11)] ∧
    (after (state [] [0x62, 0x0a, 0xfc, 0xff, 0xfe, 0xff, 0xff, 0xff])).stack =
      [(124, 0xfe), (125, 0xff), (126, 0xff), (127, 0xff)] := by decide

/-- The Address Space and the Stack example of R245. -/
theorem test_step_sth :
    (after (state [] [0x6a, 0x01, 0x20, 0x00, 0x44, 0x33, 0x22, 0x11])).addressSpace = [(32, 0x44), (33, 0x33)] ∧
    (after (state [] [0x6a, 0x0a, 0xfe, 0xff, 0xfe, 0xff, 0xff, 0xff])).stack =
      [(126, 0xfe), (127, 0xff)] := by decide

/-- The Address Space and the Stack example of R246. -/
theorem test_step_stb :
    (after (state [] [0x72, 0x01, 0x20, 0x00, 0x44, 0x33, 0x22, 0x11])).addressSpace = [(32, 0x44)] ∧
    (after (state [] [0x72, 0x0a, 0xff, 0xff, 0xfe, 0xff, 0xff, 0xff])).stack =
      [(127, 0xfe)] := by decide

/-- The Address Space and the Stack example of R247. -/
theorem test_step_stdw :
    (after (state [] [0x7a, 0x01, 0x20, 0x00, 0x44, 0x33, 0x22, 0x11])).addressSpace = [(32, 0x44), (33, 0x33), (34, 0x22), (35, 0x11)] ∧
    (after (state [] [0x7a, 0x0a, 0xf8, 0xff, 0xfe, 0xff, 0xff, 0xff])).stack =
      [(120, 0xfe), (121, 0xff), (122, 0xff), (123, 0xff), (124, 0xff), (125, 0xff), (126, 0xff), (127, 0xff)] := by decide

/-- The Address Space and the Stack example of R248. -/
theorem test_step_stxw :
    (after (state [(.r2, 0x1122334455667788)] [0x63, 0x21, 0x20, 0x00, 0x00, 0x00, 0x00, 0x00])).addressSpace = [(32, 0x88), (33, 0x77), (34, 0x66), (35, 0x55)] ∧
    (after (state [(.r2, 0x1122334455667788)] [0x63, 0x2a, 0xfc, 0xff, 0x00, 0x00, 0x00, 0x00])).stack =
      [(124, 0x88), (125, 0x77), (126, 0x66), (127, 0x55)] := by decide

/-- The Address Space and the Stack example of R249. -/
theorem test_step_stxh :
    (after (state [(.r2, 0x1122334455667788)] [0x6b, 0x21, 0x20, 0x00, 0x00, 0x00, 0x00, 0x00])).addressSpace = [(32, 0x88), (33, 0x77)] ∧
    (after (state [(.r2, 0x1122334455667788)] [0x6b, 0x2a, 0xfe, 0xff, 0x00, 0x00, 0x00, 0x00])).stack =
      [(126, 0x88), (127, 0x77)] := by decide

/-- The Address Space and the Stack example of R250. -/
theorem test_step_stxb :
    (after (state [(.r2, 0x1122334455667788)] [0x73, 0x21, 0x20, 0x00, 0x00, 0x00, 0x00, 0x00])).addressSpace = [(32, 0x88)] ∧
    (after (state [(.r2, 0x1122334455667788)] [0x73, 0x2a, 0xff, 0xff, 0x00, 0x00, 0x00, 0x00])).stack =
      [(127, 0x88)] := by decide

/-- The Address Space and the Stack example of R251. -/
theorem test_step_stxdw :
    (after (state [(.r2, 0x1122334455667788)] [0x7b, 0x21, 0x20, 0x00, 0x00, 0x00, 0x00, 0x00])).addressSpace = [(32, 0x88), (33, 0x77), (34, 0x66), (35, 0x55), (36, 0x44), (37, 0x33), (38, 0x22), (39, 0x11)] ∧
    (after (state [(.r2, 0x1122334455667788)] [0x7b, 0x2a, 0xf8, 0xff, 0x00, 0x00, 0x00, 0x00])).stack =
      [(120, 0x88), (121, 0x77), (122, 0x66), (123, 0x55), (124, 0x44), (125, 0x33), (126, 0x22), (127, 0x11)] := by decide

/-- The two examples of R221: a hit and a miss. -/
theorem test_step_call :
    (after { state [(.r1, 7), (.r2, 5), (.r0, 99)] [0x85, 0, 0, 0, 0x01, 0, 0, 0] with
      helpers := [(1, .sumArgs)] }).reg .r0 = 12 ∧
    after { state [(.r0, 99)] [0x85, 0, 0, 0, 0x63, 0, 0, 0] with helpers := [(1, .sumArgs)] } =
      { state [(.r0, 99)] [0x85, 0, 0, 0, 0x63, 0, 0, 0] with
        helpers := [(1, .sumArgs)], events := [.helperMiss 99], pc := 1 } := by decide

/-- The example of R223, from reset. -/
theorem test_step_exit : (after (state [] [0x95, 0, 0, 0, 0, 0, 0, 0])).status = .returned 0 := by decide

/-- The source's own example of the wide-immediate load (R231): the value, and `pc` from 0 to 2. -/
theorem test_step_lddw :
    (after (state [] [0x18, 0x03, 0, 0, 0x01, 0, 0, 0, 0, 0, 0, 0, 0x02, 0, 0, 0])).reg .r3 = 0x0000000200000001 ∧
    (after (state [] [0x18, 0x03, 0, 0, 0x01, 0, 0, 0, 0, 0, 0, 0, 0x02, 0, 0, 0])).pc = 2 := by decide

/-- A one-slot program that is an `lddw` (R231), and one with `dst = 12` (R273): both are truncated. -/
theorem test_fault_lddw :
    (after (state [] [0x18, 0, 0, 0, 1, 0, 0, 0])).status = .fault .truncatedProgram ∧
    (after (state [] [0x18, 0x0c, 0, 0, 1, 0, 0, 0])).status = .fault .truncatedProgram := by decide

/-! ### The loop: priority and ends -/

/-- `div64 r12, r11` reports register 12, and `div64 r12, 0` the register, not the division (R273). -/
theorem test_priority_registers :
    (after (state [] [0x3f, 0xbc, 0, 0, 0, 0, 0, 0])).status = .fault (.invalidRegister 12) ∧
    (after (state [] [0x37, 0x0c, 0, 0, 0, 0, 0, 0])).status = .fault (.invalidRegister 12) := by decide

/-- A divisor of zero (R132) leaves everything but the status. -/
theorem test_fault_divide : after (state [(.r1, 9)] [0x37, 0x01, 0, 0, 0, 0, 0, 0]) =
    { state [(.r1, 9)] [0x37, 0x01, 0, 0, 0, 0, 0, 0] with status := .fault .divideByZero } := by decide

/-- The effective address does not wrap (R61): `ldxb r0, [r1+1]` with all ones in `r1`, and `ldxb r0, [r1-1]` with zero. -/
theorem test_fault_address :
    (after (state [(.r1, 0xffffffffffffffff)] [0x71, 0x10, 1, 0, 0, 0, 0, 0])).status =
      .fault (.memoryFault 0x10000000000000000 1) ∧
    (after (state [] [0x71, 0x10, 0xff, 0xff, 0, 0, 0, 0])).status = .fault (.memoryFault (-1) 1) := by decide

/-- The empty program (R123), and the same with a budget of 0 (R273). -/
theorem test_fault_empty : (after State.reset).status = .fault .missingReturn ∧
    (after { State.reset with params := { Params.reference with budget := some 0 } }).status =
      .fault .budgetExhausted := by decide

/-- The counter counts an `exit` and not a fault (R116, R276). -/
theorem test_counter :
    (after { state [] [0x95, 0, 0, 0, 0, 0, 0, 0] with params := { Params.reference with budget := some 5 } }).icount = 1 ∧
    (after { state [] [0x00, 0, 0, 0, 0, 0, 0, 0] with params := { Params.reference with budget := some 5 } }).icount = 0 := by
  decide

/-- The later of two registrations for one key wins (R303). -/
theorem test_registry : registryOf [(1, .sumArgs), (2, .native 0), (1, .fifthArg)] = [(1, .fifthArg), (2, .native 0)] := by
  decide

/-! ### Witnesses: the hypotheses of each statement are met -/

/-- A running core about to execute `exit`. -/
def exitState : State := state [] [0x95, 0, 0, 0, 0, 0, 0, 0]


theorem witness_DecodeConsumesWholeSlots : decode [0x95, 0, 0, 0, 0, 0, 0, 0, 7] = .ok (.exit, [7]) := by decide

theorem witness_SlotFieldsAreBitSlices : (0x95 : Nat) = ∑ k : Fin 8, (if k = 0 then 0x95#8 else 0x00#8).toNat * 2 ^ (8 * (k : Nat)) := by decide

theorem witness_UnknownOpcodesAreThe158 : (0x8f#8 : Byte).toNat ∈ unknownOpcodes ∧ (0xff#8 : Byte).toNat ∈ unknownOpcodes ∧
    (0x95#8 : Byte).toNat ∉ unknownOpcodes ∧ (0x95#8 : Byte) ≠ 0x18#8 := by decide

theorem witness_ResetLeavesReferenceValues : (Reg.r1 : Reg) ≠ .r10 := by decide

theorem witness_ResetProcedureValues : Params.legal { Params.reference with memSize := 2 } ∧ ([7, 0] : List Byte).length = 2 := by decide

theorem witness_PartialSlotRejectedAtLoad : ([0x95] : List Byte).length % 8 ≠ 0 ∧ ([0x95, 0, 0, 0, 0, 0, 0, 0] : List Byte).length % 8 = 0 := by decide

theorem witness_LaterRegistrationWins : ((([(1, .sumArgs), (2, .fifthArg)] : Registry)).map Prod.fst).Nodup := by decide

theorem witness_Fetches : Fetches exitState := ⟨by decide, (by intro b h; cases h), by decide, by decide⟩

theorem witness_StepRunsTheDecodedInstruction : Fetches exitState ∧ decode (bytesFromPc exitState) = .ok (.exit, []) := ⟨witness_Fetches, by decide⟩

/-- The last two clauses: an execution that raised, and one with a budget that did not. -/
theorem witness_StepRunsTheDecodedInstruction_counter :
    exec (.add64Imm 11 0) exitState = .next (exitState.raise (.invalidRegister 11)) ∧
    (exitState.raise (.invalidRegister 11)).status = .fault (.invalidRegister 11) ∧
    exec .exit { exitState with params := { Params.reference with budget := some 1 } } =
      .next { exitState with params := { Params.reference with budget := some 1 }, status := .returned 0 } :=
  ⟨rfl, rfl, rfl⟩

theorem witness_PlacedWordRunsNext : decodeTableWord 64 0x0000000a000001b7 = some (.mov64Imm 1 10) := by decide

theorem witness_FetchGuardRaisesMissingReturn : State.reset.status = .running ∧ State.reset.params.budget = none ∧
    ((State.reset.program.length / 8 : Nat) : Int) ≤ State.reset.pc ∧
    ({ exitState with pc := -1 } : State).pc < 0 ∧ (((exitState.program.length / 8 : Nat) : Int) ≤ 1) := by decide

theorem witness_UnknownOpcodeFaults : Fetches (state [] [0, 0, 0, 0, 0, 0, 0, 0]) ∧
    bytesFromPc (state [] [0, 0, 0, 0, 0, 0, 0, 0]) = 0x00#8 :: [0, 0, 0, 0, 0, 0, 0] ∧
    (0x00#8 : Byte).toNat ∈ unknownOpcodes := ⟨⟨by decide, (by intro b h; cases h), by decide, by decide⟩, by decide, by decide⟩

theorem witness_LddwWithoutSecondSlotFaults : Fetches (state [] [0x18, 0x0c, 0, 0, 1, 0, 0, 0]) ∧
    (state [] [0x18, 0x0c, 0, 0, 1, 0, 0, 0]).program.length % 8 = 0 ∧
    (state [] [0x18, 0x0c, 0, 0, 1, 0, 0, 0]).pc = ((state [] [0x18, 0x0c, 0, 0, 1, 0, 0, 0]).nslots : Int) - 1 ∧
    bytesFromPc (state [] [0x18, 0x0c, 0, 0, 1, 0, 0, 0]) = 0x18#8 :: [0x0c, 0, 0, 1, 0, 0, 0] := ⟨⟨by decide, (by intro b h; cases h), by decide, by decide⟩, by decide, by decide, by decide⟩

theorem witness_RegisterCheckPrecedesExecution : (Instr.div64Reg 11 15).usedDst = some 11 ∧ 10 < (11 : RegField).toNat ∧
    (Instr.div64Reg 10 11).usedSrc = some 11 ∧ (∀ d, (Instr.div64Reg 10 11).usedDst = some d → d.toNat ≤ 10) := ⟨rfl, by decide, rfl, by intro d h; cases h; decide⟩

theorem witness_BudgetIsCheckedFirst : ∀ n ∈ [0, 4, 5], ∃ s : State, s.status = .running ∧ s.params.budget = some 5 ∧ s.icount = n := fun n _ =>
  ⟨{ exitState with params := { Params.reference with budget := some 5 }, icount := n }, rfl, rfl, rfl⟩

theorem witness_EveryStepEndsInOneOfThreeWays : exitState.status = .running := by decide

theorem witness_TerminalStatusIsFrozen : (exitState.raise .missingReturn).status ≠ .running ∧ exitState.finish.status ≠ .running := by decide

theorem witness_BudgetEndsEveryRun : ({ exitState with params := { Params.reference with budget := some 0 } } : State).params.budget = some 0 := by decide

/-- The invariant holds of a core with a program, a helper and listed bytes in both regions. -/
theorem witness_inv : Inv (withMemory { exitState with helpers := [(1, .sumArgs)] }) where
  legal := by decide
  addressSpace := by decide
  stack := by decide
  slots := by decide
  pcLow := by decide
  pcHigh := by decide
  uncounted := by decide
  counted := by intro b h; cases h
  keys := by decide

theorem witness_StepKeepsTheInvariant : Inv (withMemory { exitState with helpers := [(1, .sumArgs)] }) ∧
    step (withMemory { exitState with helpers := [(1, .sumArgs)] }) =
      .next (withMemory { exitState with helpers := [(1, .sumArgs)], status := .returned 0 }) := ⟨witness_inv, rfl⟩

theorem witness_InvariantHoldsAtEveryStart : Params.reference.legal ∧ (([(1, .sumArgs)] : Registry).map Prod.fst).Nodup := by decide

theorem witness_PcStaysInItsRange : exitState.status = .running ∧ -32768 ≤ exitState.pc ∧ exitState.pc ≤ (exitState.nslots : Int) + 32767 ∧
    step exitState = .next exitState.finish := ⟨by decide, by decide, by decide, rfl⟩

theorem witness_RunParametersNeverChange : step exitState = .next exitState.finish := rfl

theorem witness_AtMostOneDataWrite : exec (.stxb 10 0xffff 2) exitState = .next ((exitState.setBytes .stack 127 [0]).advance 1) ∧
    (Instr.stxb 10 0xffff 2).storeShape ≠ none ∧ ¬ inWindow (storeWindow (.stxb 10 0xffff 2) exitState) .stack 126 ∧
    (Instr.stxb 10 0xffff 2).destination ≠ some Reg.r2.field := by
  refine ⟨rfl, by decide, ?_, by decide⟩
  rintro ⟨R, k, n, h, rfl, h1, h2⟩
  have e : storeWindow (.stxb 10 0xffff 2) exitState = some (.stack, 127, 1) := by decide
  rw [e] at h
  cases h
  omega

/-- The clauses at their boundaries: a source field of 11 leaves a store no window, and so does an address whose bytes run
past the end of the Stack. -/
theorem witness_AtMostOneDataWrite_faults :
    exec (.stxb 10 0xffff 11) exitState = .next { exitState with status := .fault (.invalidRegister 11) } ∧
    storeWindow (.stxb 10 0xffff 11) exitState = none ∧
    exec (.stxh 10 0xffff 2) exitState = .next { exitState with status := .fault (.memoryFault 0x107f 2) } ∧
    storeWindow (.stxh 10 0xffff 2) exitState = none := ⟨rfl, by decide, rfl, by decide⟩

/-- The clauses of status and pc: `exit`, and a jump. -/
theorem witness_AtMostOneDataWrite_control :
    exec .exit exitState = .next { exitState with status := .returned 0 } ∧
    exec (.ja 0xffff) exitState = .next { exitState with pc := exitState.pc + 1 + (0xffff : OffField).toInt } :=
  ⟨rfl, rfl⟩

theorem witness_OnlyJumpsMoveElsewhere : exec (.ja 0xffff) exitState = .next (exitState.jump 0xffff) ∧ (Instr.ja 0xffff).jumpOff = some 0xffff ∧
    exec .exit exitState = .next exitState.finish ∧ Instr.exit.jumpOff = none := ⟨rfl, rfl, rfl, rfl⟩

theorem witness_ReportsAreUnobservable : step exitState = .next exitState.finish := rfl

theorem witness_CounterIsUnobservable : exec .exit exitState = .next exitState.finish := rfl

theorem witness_TranslateFindsTheRegion : Params.reference.legal ∧ (8 : Nat) ∈ [1, 2, 4, 8] ∧ 1016 + 8 ≤ Params.reference.memSize ∧
    120 + 8 ≤ Params.reference.stackSize ∧
    (Params.reference.memBase.toNat : Int) + Params.reference.memSize < (1017 : Int) + (8 : Nat) ∧
    (1017 : Int) < Params.reference.stackBase.toNat ∧ (-1 : Int) < 0 ∧ (2 ^ 64 : Int) ≤ 2 ^ 64 := by decide

theorem witness_MixedWidthReadsSeeBytes : exitState.params.legal ∧ memWrite exitState 0x1078 8 0x1122334455667788 =
    .ok (exitState.setBytes .stack 120 (toBytes 8 0x1122334455667788)) := ⟨by decide, rfl⟩

/-- Each clause at the end of the Address Space: a narrow write under a wide read, a read past the end, a read that ends
where the write does. -/
theorem witness_MixedWidthReadsSeeBytes_narrowWrite :
    memWrite exitState 1020 2 0xabcd = .ok (exitState.setBytes .addressSpace 1020 (toBytes 2 0xabcd)) ∧
    memRead exitState reachBoth 1016 8 = .ok 0 ∧ memRead exitState reachBoth 1017 8 = .error (.memoryFault 1017 8) ∧
    memRead (exitState.setBytes .addressSpace 1020 (toBytes 2 0xabcd)) reachBoth 1016 8 = .ok 0xabcd00000000 ∧
    (2 : Nat) ∈ [1, 2, 4, 8] ∧ 1 + 1 ≤ 2 := by decide

theorem witness_StoreThenLoadRoundTrips : translateAccess exitState.params reachBoth (((exitState.reg .r10).toNat : Int) + (0xfff8 : OffField).toInt) 8 =
    some (.stack, 120) ∧
    translateAccess exitState.params reachBoth (((exitState.reg .r1).toNat : Int) + (1023 : OffField).toInt) 1 =
      some (.addressSpace, 1023) := by decide

theorem witness_AbsoluteAndIndirectLoadsIgnoreTheStack : exec (.ldabsb 1023) exitState = .next ((exitState.setReg .r0 0).advance 1) ∧
    exec (.ldindw 1 1020) exitState = .next ((exitState.setReg .r0 0).advance 1) := ⟨rfl, rfl⟩

theorem witness_Alu64ImmediateForms : 10 < (11 : RegField).toNat ∧ 10 < (15 : RegField).toNat := by decide

theorem witness_Alu64RegisterForms : 10 < (11 : RegField).toNat ∧ 10 < (15 : RegField).toNat := by decide

theorem witness_Alu32ImmediateForms : 10 < (11 : RegField).toNat ∧ 10 < (15 : RegField).toNat := by decide

theorem witness_Alu32RegisterForms : 10 < (11 : RegField).toNat ∧ 10 < (15 : RegField).toNat := by decide

theorem witness_NegateBothWidths : 10 < (11 : RegField).toNat ∧ 10 < (15 : RegField).toNat := by decide

theorem witness_WideImmediateLoad : 10 < (11 : RegField).toNat ∧ 10 < (15 : RegField).toNat ∧ ([0, 0, 0, 0, 0, 0, 0] : List Byte).length < 8 := by decide

theorem witness_DivideAndRemainder64 : sext64 0xffffffff ≠ 0 ∧ sext64 0 = 0 ∧ (exitState.reg .r10).toNat ≠ 0 ∧ (exitState.reg .r0).toNat = 0 ∧
    10 < (11 : RegField).toNat ∧ 10 < (15 : RegField).toNat := by decide

theorem witness_DivideAndRemainder32 : sext64 0xffffffff ≠ 0 ∧ sext64 0 = 0 ∧ (exitState.reg .r10).toNat ≠ 0 ∧ (exitState.reg .r0).toNat = 0 ∧
    10 < (11 : RegField).toNat ∧ 10 < (15 : RegField).toNat := by decide

theorem witness_ByteSwaps : (∀ n ∈ [0, 8, 24, 128], (BitVec.ofNat 32 n).toInt ≠ 16 ∧ (BitVec.ofNat 32 n).toInt ≠ 32 ∧ (BitVec.ofNat 32 n).toInt ≠ 64) ∧
    (64 : Nat) ∈ [16, 32, 64] ∧ 10 < (11 : RegField).toNat ∧ 10 < (15 : RegField).toNat := by decide

theorem witness_ByteSwapTwice : exec (.be Reg.r1.field (BitVec.ofNat 32 16)) exitState = .next ((exitState.setReg .r1 0).advance 1) ∧
    exec (.le Reg.r1.field (BitVec.ofNat 32 64)) exitState = .next ((exitState.setReg .r1 0).advance 1) := ⟨rfl, rfl⟩

/-- Operands for which each of the eleven conditions holds and operands for which it does not, in the order of the
statement, and register fields that are none. -/
theorem witness_ConditionalImmediateJumps :
    (5 = 5) ∧ ¬ (5 = 6) ∧
    (5 < 6) ∧ ¬ (5 < 5) ∧
    (5 ≤ 5) ∧ ¬ (6 ≤ 5) ∧
    (0xf0 &&& 0x10 ≠ 0) ∧ ¬ (0xf0 &&& 0xf ≠ 0) ∧
    (5 ≠ 6) ∧ ¬ (5 ≠ 5) ∧
    (signed64 0xffffffffffffffff < signed64 0) ∧ ¬ (signed64 0 < signed64 0xffffffffffffffff) ∧
    (signed64 0x8000000000000000 ≤ signed64 0x8000000000000000) ∧ ¬ (signed64 0 ≤ signed64 0x8000000000000000) ∧
    (5 < 6) ∧ ¬ (5 < 5) ∧
    (5 ≤ 5) ∧ ¬ (6 ≤ 5) ∧
    (signed64 0x8000000000000000 < signed64 0x7fffffffffffffff) ∧ ¬ (signed64 0 < signed64 0) ∧
    (signed64 0 ≤ signed64 0) ∧ ¬ (signed64 0 ≤ signed64 0xffffffffffffffff) ∧
    10 < (11 : RegField).toNat ∧ 10 < (15 : RegField).toNat := by decide

/-- Operands for which each of the eleven conditions holds and operands for which it does not, in the order of the
statement, and register fields that are none. -/
theorem witness_ConditionalRegisterJumps :
    (5 = 5) ∧ ¬ (5 = 6) ∧
    (5 < 6) ∧ ¬ (5 < 5) ∧
    (5 ≤ 5) ∧ ¬ (6 ≤ 5) ∧
    (0xf0 &&& 0x10 ≠ 0) ∧ ¬ (0xf0 &&& 0xf ≠ 0) ∧
    (5 ≠ 6) ∧ ¬ (5 ≠ 5) ∧
    (signed64 0xffffffffffffffff < signed64 0) ∧ ¬ (signed64 0 < signed64 0xffffffffffffffff) ∧
    (signed64 0x8000000000000000 ≤ signed64 0x8000000000000000) ∧ ¬ (signed64 0 ≤ signed64 0x8000000000000000) ∧
    (5 < 6) ∧ ¬ (5 < 5) ∧
    (5 ≤ 5) ∧ ¬ (6 ≤ 5) ∧
    (signed64 0x8000000000000000 < signed64 0x7fffffffffffffff) ∧ ¬ (signed64 0 < signed64 0) ∧
    (signed64 0 ≤ signed64 0) ∧ ¬ (signed64 0 ≤ signed64 0xffffffffffffffff) ∧
    10 < (11 : RegField).toNat ∧ 10 < (15 : RegField).toNat := by decide

theorem witness_CallInvokesTheHelper : findHelper [(1, .sumArgs)] 1 = some .sumArgs ∧ findHelper [(1, .sumArgs)] 2 = none := by decide

theorem witness_AbsoluteLoads : ∀ n ∈ [1, 2, 4, 8], (BitVec.ofNat 32 (1024 - n)).toNat + n ≤ exitState.params.memSize ∧
    exitState.params.memSize < (BitVec.ofNat 32 (1025 - n)).toNat + n := by decide

theorem witness_IndirectLoads : ∀ n ∈ [1, 2, 4, 8], exitState.params.memBase.toNat ≤ (exitState.reg .r1).toNat + (BitVec.ofNat 32 (1024 - n)).toNat ∧
    (exitState.reg .r1).toNat + (BitVec.ofNat 32 (1024 - n)).toNat + n ≤
      exitState.params.memBase.toNat + exitState.params.memSize ∧
    exitState.params.memBase.toNat + exitState.params.memSize <
      (exitState.reg .r1).toNat + (BitVec.ofNat 32 (1025 - n)).toNat + n ∧ 10 < (11 : RegField).toNat ∧ 10 < (15 : RegField).toNat := by decide

theorem witness_OffsetLoads : ∀ n ∈ [1, 2, 4, 8],
    translateAccess exitState.params reachBoth (((exitState.reg .r1).toNat : Int) + (BitVec.ofNat 16 (1024 - n)).toInt) n =
      some (.addressSpace, 1024 - n) ∧
    translateAccess exitState.params reachBoth (((exitState.reg .r10).toNat : Int) + (BitVec.ofInt 16 (-(n : Int))).toInt) n =
      some (.stack, 128 - n) ∧
    translateAccess exitState.params reachBoth (((exitState.reg .r10).toNat : Int) + (0 : OffField).toInt) n = none ∧
    10 < (11 : RegField).toNat ∧ 10 < (15 : RegField).toNat := by decide

theorem witness_ImmediateStores : ∀ n ∈ [1, 2, 4, 8],
    translateAccess exitState.params reachBoth (((exitState.reg .r1).toNat : Int) + (BitVec.ofNat 16 (1024 - n)).toInt) n =
      some (.addressSpace, 1024 - n) ∧
    translateAccess exitState.params reachBoth (((exitState.reg .r10).toNat : Int) + (BitVec.ofInt 16 (-(n : Int))).toInt) n =
      some (.stack, 128 - n) ∧
    translateAccess exitState.params reachBoth (((exitState.reg .r10).toNat : Int) + (0 : OffField).toInt) n = none ∧
    10 < (11 : RegField).toNat ∧ 10 < (15 : RegField).toNat := by decide

theorem witness_RegisterStores : ∀ n ∈ [1, 2, 4, 8],
    translateAccess exitState.params reachBoth (((exitState.reg .r1).toNat : Int) + (BitVec.ofNat 16 (1024 - n)).toInt) n =
      some (.addressSpace, 1024 - n) ∧
    translateAccess exitState.params reachBoth (((exitState.reg .r10).toNat : Int) + (BitVec.ofInt 16 (-(n : Int))).toInt) n =
      some (.stack, 128 - n) ∧
    translateAccess exitState.params reachBoth (((exitState.reg .r10).toNat : Int) + (0 : OffField).toInt) n = none ∧
    10 < (11 : RegField).toNat ∧ 10 < (15 : RegField).toNat := by decide

end Sys2Proof.Tests
end

section
/-! SUPPORT. The event list is written and never read (spec/00_scope.md R15, spec/44_call_exit.md R222). The idea: a
change of the state that no operation of the machine observes commutes with every execution; putting reports before those
of the state is such a change. -/

namespace Sys2Proof.Machine

/-! ### Changes of the state that no instruction observes -/

/-- Apply a function to the next state of an outcome. -/
def mapNext (φ : State → State) : Result → Result
  | .next t => .next (φ t)
  | .fault r => .fault r
  | .refused r => .refused r

/-- A change of the state that leaves everything an instruction reads as it was and that commutes with everything an
instruction writes. -/
structure Unobserved (φ : State → State) : Prop where
  reg : ∀ s q, (φ s).reg q = s.reg q
  byteAt : ∀ s R k, (φ s).byteAt R k = s.byteAt R k
  params : ∀ s, (φ s).params = s.params
  helpers : ∀ s, (φ s).helpers = s.helpers
  setReg : ∀ s r v, (φ s).setReg r v = φ (s.setReg r v)
  setBytes : ∀ s R k bs, (φ s).setBytes R k bs = φ (s.setBytes R k bs)
  advance : ∀ s n, (φ s).advance n = φ (s.advance n)
  jump : ∀ s off, (φ s).jump off = φ (s.jump off)
  emit : ∀ s e, (φ s).emit e = φ (s.emit e)
  raise : ∀ s c, (φ s).raise c = φ (s.raise c)
  finish : ∀ s, (φ s).finish = φ s.finish

namespace Unobserved

variable {φ : State → State} (hφ : Unobserved φ)
include hφ

theorem raise_commutes (c : Cause) (s : State) : Machine.raise c (φ s) = mapNext φ (Machine.raise c s) :=
  congrArg Host.Outcome.next (hφ.raise s c)

/-- What every instruction with a destination ends in: the register write and the move to the next instruction. -/
theorem write_commutes (d : Reg) (v : Word) (n : Int) (s : State) :
    (.next (((φ s).setReg d v).advance n) : Result) = mapNext φ (.next ((s.setReg d v).advance n)) := by
  rw [hφ.setReg, hφ.advance, mapNext]

theorem withReg_commutes {k k' : Reg → Result} (hk : ∀ r, k' r = mapNext φ (k r)) (f : RegField) (s : State) :
    withReg f (φ s) k' = mapNext φ (withReg f s k) := by
  unfold withReg
  split
  · exact hk _
  · exact hφ.raise_commutes _ s

theorem withRegs_commutes {k k' : Reg → Reg → Result} (hk : ∀ d r, k' d r = mapNext φ (k d r)) (f g : RegField)
    (s : State) : withRegs f g (φ s) k' = mapNext φ (withRegs f g s k) :=
  hφ.withReg_commutes (fun d => hφ.withReg_commutes (hk d) g s) f s

theorem bytesAt_eq (s : State) (R : Region) (k n : Nat) : (φ s).bytesAt R k n = s.bytesAt R k n :=
  State.bytesAt_congr _ _ _ _ _ fun _ _ _ => hφ.byteAt ..

/-! ### One lemma per form -/

theorem aluImm_commutes (op : Word → Word → Word) (dst : RegField) (imm : ImmField) (s : State) :
    aluImm op dst imm (φ s) = mapNext φ (aluImm op dst imm s) :=
  hφ.withReg_commutes (fun d => by rw [hφ.reg, hφ.write_commutes]) dst s

theorem aluReg_commutes (op : Word → Word → Word) (dst src : RegField) (s : State) :
    aluReg op dst src (φ s) = mapNext φ (aluReg op dst src s) :=
  hφ.withRegs_commutes (fun d r => by rw [hφ.reg, hφ.reg, hφ.write_commutes]) dst src s

theorem aluUnary_commutes (op : Word → Word) (dst : RegField) (s : State) :
    aluUnary op dst (φ s) = mapNext φ (aluUnary op dst s) :=
  hφ.withReg_commutes (fun d => by rw [hφ.reg, hφ.write_commutes]) dst s

theorem divideInto_commutes (op : Word → Word → Word) (d : Reg) (b : Word) (s : State) :
    divideInto op d b (φ s) = mapNext φ (divideInto op d b s) := by
  unfold divideInto
  split
  · exact hφ.raise_commutes _ s
  · rw [hφ.reg, hφ.write_commutes]

theorem divImm_commutes (op : Word → Word → Word) (dst : RegField) (imm : ImmField) (s : State) :
    divImm op dst imm (φ s) = mapNext φ (divImm op dst imm s) :=
  hφ.withReg_commutes (fun d => hφ.divideInto_commutes op d _ s) dst s

theorem divReg_commutes (op : Word → Word → Word) (dst src : RegField) (s : State) :
    divReg op dst src (φ s) = mapNext φ (divReg op dst src s) :=
  hφ.withRegs_commutes (fun d r => by rw [hφ.reg, hφ.divideInto_commutes]) dst src s

theorem byteSwap_commutes (op : Nat → Word → Word) (dst : RegField) (imm : ImmField) (s : State) :
    byteSwap op dst imm (φ s) = mapNext φ (byteSwap op dst imm s) := by
  refine hφ.withReg_commutes (fun d => ?_) dst s
  split
  · rw [hφ.reg, hφ.write_commutes]
  · exact hφ.raise_commutes _ s

theorem branch_commutes (taken : Bool) (off : OffField) (s : State) :
    branch taken off (φ s) = mapNext φ (branch taken off s) := by
  unfold branch
  split
  · rw [hφ.jump, mapNext]
  · rw [hφ.advance, mapNext]

theorem jumpImm_commutes (cond : Word → Word → Bool) (dst : RegField) (imm : ImmField) (off : OffField) (s : State) :
    jumpImm cond dst imm off (φ s) = mapNext φ (jumpImm cond dst imm off s) :=
  hφ.withReg_commutes (fun d => by rw [hφ.reg, hφ.branch_commutes]) dst s

theorem jumpReg_commutes (cond : Word → Word → Bool) (dst src : RegField) (off : OffField) (s : State) :
    jumpReg cond dst src off (φ s) = mapNext φ (jumpReg cond dst src off s) :=
  hφ.withRegs_commutes (fun d r => by rw [hφ.reg, hφ.reg, hφ.branch_commutes]) dst src s

theorem loadInto_commutes (d : Reg) (reach : List Region) (a : Int) (n : Nat) (s : State) :
    loadInto d reach a n (φ s) = mapNext φ (loadInto d reach a n s) := by
  have hr : memRead (φ s) reach a n = memRead s reach a n := by
    unfold memRead
    simp only [hφ.params, hφ.bytesAt_eq]
  unfold loadInto
  rw [hr]
  split
  · exact hφ.write_commutes ..
  · exact hφ.raise_commutes _ s

theorem loadAbs_commutes (n : Nat) (imm : ImmField) (s : State) :
    loadAbs n imm (φ s) = mapNext φ (loadAbs n imm s) := by
  unfold loadAbs
  rw [hφ.params, hφ.loadInto_commutes]

theorem loadInd_commutes (n : Nat) (src : RegField) (imm : ImmField) (s : State) :
    loadInd n src imm (φ s) = mapNext φ (loadInd n src imm s) :=
  hφ.withReg_commutes (fun r => by rw [hφ.reg, hφ.loadInto_commutes]) src s

theorem loadOff_commutes (n : Nat) (dst src : RegField) (off : OffField) (s : State) :
    loadOff n dst src off (φ s) = mapNext φ (loadOff n dst src off s) :=
  hφ.withRegs_commutes (fun d r => by rw [hφ.reg, hφ.loadInto_commutes]) dst src s

theorem storeAt_commutes (a : Int) (n : Nat) (v : Word) (s : State) :
    storeAt a n v (φ s) = mapNext φ (storeAt a n v s) := by
  rcases storeAt_cases a n v s with ⟨R, k, ht, h⟩ | ⟨ht, h⟩
  · rw [h, storeAt, memWrite_some (R := R) (k := k) (by rw [hφ.params, ht])]
    simp only [hφ.setBytes, hφ.advance, mapNext]
  · rw [h, storeAt, memWrite_none (by rw [hφ.params, ht])]
    exact hφ.raise_commutes _ s

theorem storeImm_commutes (n : Nat) (dst : RegField) (off : OffField) (imm : ImmField) (s : State) :
    storeImm n dst off imm (φ s) = mapNext φ (storeImm n dst off imm s) :=
  hφ.withReg_commutes (fun d => by rw [hφ.reg, hφ.storeAt_commutes]) dst s

theorem storeReg_commutes (n : Nat) (dst : RegField) (off : OffField) (src : RegField) (s : State) :
    storeReg n dst off src (φ s) = mapNext φ (storeReg n dst off src s) :=
  hφ.withRegs_commutes (fun d r => by rw [hφ.reg, hφ.reg, hφ.storeAt_commutes]) dst src s

theorem loadWide_commutes (dst : RegField) (imm imm2 : ImmField) (s : State) :
    loadWide dst imm imm2 (φ s) = mapNext φ (loadWide dst imm imm2 s) :=
  hφ.withReg_commutes (fun _ => hφ.write_commutes ..) dst s

theorem callHelper_commutes (key : ImmField) (s : State) :
    callHelper key (φ s) = mapNext φ (callHelper key s) := by
  unfold callHelper
  simp only [hφ.helpers, hφ.reg]
  split
  · exact hφ.write_commutes ..
  · rw [hφ.emit, hφ.advance, mapNext]

/-- An unobserved change before an instruction is the same change after it. -/
theorem exec_commutes (i : Instr) (s : State) : exec i (φ s) = mapNext φ (exec i s) := by
  cases i with
  | add64Imm dst imm | sub64Imm dst imm | mul64Imm dst imm | or64Imm dst imm | and64Imm dst imm | lsh64Imm dst imm
  | rsh64Imm dst imm | xor64Imm dst imm | mov64Imm dst imm | arsh64Imm dst imm
  | add32Imm dst imm | sub32Imm dst imm | mul32Imm dst imm | or32Imm dst imm | and32Imm dst imm | lsh32Imm dst imm
  | rsh32Imm dst imm | xor32Imm dst imm | mov32Imm dst imm | arsh32Imm dst imm => exact hφ.aluImm_commutes _ dst imm s
  | add64Reg dst src | sub64Reg dst src | mul64Reg dst src | or64Reg dst src | and64Reg dst src | lsh64Reg dst src
  | rsh64Reg dst src | xor64Reg dst src | mov64Reg dst src | arsh64Reg dst src
  | add32Reg dst src | sub32Reg dst src | mul32Reg dst src | or32Reg dst src | and32Reg dst src | lsh32Reg dst src
  | rsh32Reg dst src | xor32Reg dst src | mov32Reg dst src | arsh32Reg dst src => exact hφ.aluReg_commutes _ dst src s
  | neg64 dst | neg32 dst => exact hφ.aluUnary_commutes _ dst s
  | div64Imm dst imm | mod64Imm dst imm | div32Imm dst imm | mod32Imm dst imm => exact hφ.divImm_commutes _ dst imm s
  | div64Reg dst src | mod64Reg dst src | div32Reg dst src | mod32Reg dst src => exact hφ.divReg_commutes _ dst src s
  | le dst imm | be dst imm => exact hφ.byteSwap_commutes _ dst imm s
  | ja off => exact congrArg Host.Outcome.next (hφ.jump s off)
  | jeqImm dst imm off | jgtImm dst imm off | jgeImm dst imm off | jsetImm dst imm off | jneImm dst imm off
  | jsgtImm dst imm off | jsgeImm dst imm off | jltImm dst imm off | jleImm dst imm off | jsltImm dst imm off
  | jsleImm dst imm off => exact hφ.jumpImm_commutes _ dst imm off s
  | jeqReg dst src off | jgtReg dst src off | jgeReg dst src off | jsetReg dst src off | jneReg dst src off
  | jsgtReg dst src off | jsgeReg dst src off | jltReg dst src off | jleReg dst src off | jsltReg dst src off
  | jsleReg dst src off => exact hφ.jumpReg_commutes _ dst src off s
  | call imm => exact hφ.callHelper_commutes imm s
  | exit => exact congrArg Host.Outcome.next (hφ.finish s)
  | lddw dst imm imm2 => exact hφ.loadWide_commutes dst imm imm2 s
  | ldabsw imm | ldabsh imm | ldabsb imm | ldabsdw imm => exact hφ.loadAbs_commutes _ imm s
  | ldindw src imm | ldindh src imm | ldindb src imm | ldinddw src imm => exact hφ.loadInd_commutes _ src imm s
  | ldxw dst src off | ldxh dst src off | ldxb dst src off | ldxdw dst src off => exact hφ.loadOff_commutes _ dst src off s
  | stw dst off imm | sth dst off imm | stb dst off imm | stdw dst off imm => exact hφ.storeImm_commutes _ dst off imm s
  | stxw dst off src | stxh dst off src | stxb dst off src | stxdw dst off src => exact hφ.storeReg_commutes _ dst off src s

end Unobserved

/-! ### Earlier reports -/

/-- The state with earlier reports before its own. -/
def State.withPast (past : List Event) (s : State) : State := { s with events := past ++ s.events }

theorem State.setBytes_withPast (past : List Event) (s : State) (R : Region) (k : Nat) (bs : List Byte) :
    (s.withPast past).setBytes R k bs = (s.setBytes R k bs).withPast past := by
  induction bs generalizing s k with
  | nil => rfl
  | cons b bs ih =>
    have hb : (s.withPast past).setByte R k b = (s.setByte R k b).withPast past := by cases R <;> rfl
    rw [State.setBytes, State.setBytes, hb, ih]

/-- No instruction observes earlier reports: the one write of the event list appends (R222). -/
theorem unobserved_withPast (past : List Event) : Unobserved (State.withPast past) where
  reg _ _ := rfl
  byteAt _ R _ := by cases R <;> rfl
  params _ := rfl
  helpers _ := rfl
  setReg _ _ _ := rfl
  setBytes := State.setBytes_withPast past
  advance _ _ := rfl
  jump _ _ := rfl
  emit s e := by simp only [State.withPast, State.emit, List.append_assoc]
  raise _ _ := rfl
  finish _ := rfl

theorem State.counted_withPast (past : List Event) (t : State) : (t.withPast past).counted = t.counted.withPast past := by
  obtain ⟨pc, regs, addressSpace, stack, status, icount, events, params, program, helpers⟩ := t
  obtain ⟨memBase, memSize, stackBase, stackSize, budget⟩ := params
  cases status <;> cases budget <;> rfl

theorem countStep_withPast (past : List Event) (r : Result) :
    countStep (mapNext (State.withPast past) r) = mapNext (State.withPast past) (countStep r) := by
  cases r with
  | next t => exact congrArg Host.Outcome.next (t.counted_withPast past)
  | fault c => rfl
  | refused c => rfl

/-- A step after earlier reports is the step without them, the earlier reports kept. -/
theorem step_withPast (past : List Event) (s : State) :
    step (s.withPast past) = mapNext (State.withPast past) (step s) := by
  have hstatus : (s.withPast past).status = s.status := rfl
  have hbudget : (s.withPast past).budgetSpent = s.budgetSpent := rfl
  have hfetch : fetch (s.withPast past) = fetch s := rfl
  unfold step
  rw [hstatus, hbudget, hfetch]
  split
  · rfl
  · rfl
  · split
    · rfl
    · split
      · rfl
      · rw [(unobserved_withPast past).exec_commutes, countStep_withPast]

theorem mapNext_eq_next {φ : State → State} {r : Result} {t : State} (h : mapNext φ r = .next t) :
    ∃ u, r = .next u ∧ t = φ u := by
  cases r with
  | next u => exact ⟨u, rfl, (Host.Outcome.next.inj h).symm⟩
  | fault c => cases h
  | refused c => cases h

/-- Settles O29: a state is the same state without reports after its own list as the past; both cores step as that one
does, and the new reports are the ones it makes. -/
theorem reportsAreUnobservable : Obligations.ReportsAreUnobservable := by
  intro s t ev h
  have hpast : ∀ past, step { s with events := past } = mapNext (State.withPast past) (step { s with events := [] }) := by
    intro past
    rw [← step_withPast, State.withPast, List.append_nil]
  obtain ⟨u, hu, rfl⟩ := mapNext_eq_next ((hpast s.events).symm.trans h)
  exact ⟨u.events, rfl, by rw [hpast, hu]; rfl⟩

end Sys2Proof.Machine
end

section
/-! SUPPORT. The host's side: what a registration does to the registry (spec/00_scope.md R14,
spec/70_reset_and_hazards.md R303), the cells of the host's initial bytes in canonical form (R8, R300), and the invariant
at every start. -/

namespace Sys2Proof.Machine

/-! ### Registrations -/

/-- Unregistering removes its key and no other. -/
theorem findHelper_unregister (reg : Registry) (key q : ImmField) :
    findHelper (unregister key reg) q = if q = key then none else findHelper reg q := by
  induction reg with
  | nil => simp [unregister, findHelper]
  | cons entry rest ih =>
    obtain ⟨k, h⟩ := entry
    by_cases hk : k = key
    · subst hk
      by_cases hq : q = k
      · subst hq; simp [unregister, ih]
      · simp [unregister, ih, hq, findHelper, Ne.symm hq]
    · by_cases hq : q = key
      · subst hq
        simp [unregister, hk, findHelper, ih]
      · simp [unregister, hk, findHelper, ih, hq]

theorem unregister_keys (reg : Registry) (key : ImmField) :
    (unregister key reg).map Prod.fst = (reg.map Prod.fst).filter (· ≠ key) := by
  induction reg with
  | nil => rfl
  | cons entry rest ih =>
    obtain ⟨k, h⟩ := entry
    by_cases hk : k = key
    · simp [unregister, hk, ih]
    · simp [unregister, hk, ih]

theorem findHelper_registerHelper (reg : Registry) (key q : ImmField) (h : Helper) :
    findHelper (registerHelper reg key h) q = if q = key then some h else findHelper reg q := by
  rw [registerHelper, findHelper, findHelper_unregister]
  by_cases hq : q = key
  · simp [hq]
  · simp [hq, Ne.symm hq]

theorem registerHelper_nodup {reg : Registry} (hreg : (reg.map Prod.fst).Nodup) (key : ImmField) (h : Helper) :
    ((registerHelper reg key h).map Prod.fst).Nodup := by
  rw [registerHelper, List.map_cons, unregister_keys]
  exact List.nodup_cons.2 ⟨by simp, hreg.filter _⟩

/-- Settles O11: a registration puts its entry before a registry without the key. -/
theorem laterRegistrationWins : Obligations.LaterRegistrationWins := fun reg key h =>
  ⟨fun q => findHelper_registerHelper reg key q h, fun hreg => registerHelper_nodup hreg key h⟩

/-! ### The invariant at a start -/

/-- A cell of the initial bytes lies at or after the first offset, inside the region, and is not zero. -/
theorem mem_cellsOf {size k : Nat} {bs : List Byte} {c : Host.Cell} (h : c ∈ cellsOf size k bs) :
    k ≤ c.1 ∧ c.1 < size ∧ c.2 ≠ 0x00#8 := by
  induction bs generalizing k with
  | nil => cases h
  | cons b bs ih =>
    have hlater : c ∈ cellsOf size (k + 1) bs → k ≤ c.1 ∧ c.1 < size ∧ c.2 ≠ 0x00#8 := fun hc =>
      ⟨Nat.le_of_succ_le (ih hc).1, (ih hc).2⟩
    rw [cellsOf] at h
    split at h
    · rename_i hb
      rcases List.mem_cons.1 h with rfl | h
      · exact ⟨le_refl _, hb⟩
      · exact hlater h
    · exact hlater h

theorem cellsOf_sorted (size k : Nat) (bs : List Byte) : (cellsOf size k bs).Pairwise fun c d => c.1 < d.1 := by
  induction bs generalizing k with
  | nil => exact List.Pairwise.nil
  | cons b bs ih =>
    rw [cellsOf]
    split
    · exact List.pairwise_cons.2 ⟨fun c hc => (mem_cellsOf hc).1, ih (k + 1)⟩
    · exact ih (k + 1)

/-- The cells of the initial bytes are in canonical form, whatever the bytes are (log entries 5 and 16). -/
theorem cellsOf_wf (size k : Nat) (bs : List Byte) :
    Memory.wf Region.addressSpace.unlisted size (cellsOf size k bs) := by
  refine ⟨cellsOf_sorted size k bs, fun c hc => ?_⟩
  obtain ⟨_, hsize, hzero⟩ := mem_cellsOf hc
  exact ⟨hsize, fun e => hzero (Option.some.inj e).symm⟩

/-- The load check leaves a running core with whole slots only (R111). -/
theorem loadStatus_cases (program : List Byte) :
    program.length % 8 = 0 ∨ loadStatus program = .fault .truncatedProgram := by
  unfold loadStatus
  split
  · rename_i h
    exact .inl h
  · exact .inr rfl

theorem start_inv {p : Params} {helpers : Registry} (hp : p.legal) (hkeys : (helpers.map Prod.fst).Nodup)
    (program memInit : List Byte) : Inv (State.start p program helpers memInit) where
  legal := hp
  addressSpace := cellsOf_wf p.memSize 0 memInit
  stack := ⟨List.Pairwise.nil, fun _ hc => nomatch hc⟩
  slots := loadStatus_cases program
  pcLow := show (-32768 : Int) ≤ 0 by decide
  pcHigh := show (0 : Int) ≤ ((program.length / 8 : Nat) : Int) + 32767 by omega
  uncounted _ := rfl
  counted b _ := Nat.zero_le b
  keys := hkeys

/-- Settles O24, clause by clause of the invariant in `start_inv`. -/
theorem invariantHoldsAtEveryStart : Obligations.InvariantHoldsAtEveryStart := fun _ program _ memInit hp hkeys =>
  start_inv hp hkeys program memInit

/-- The reset state is the reset procedure of the reference configuration with nothing supplied (log entries 2 and 3). -/
theorem reset_eq_start : State.reset = State.start Params.reference [] [] [] := rfl

/-- Settles O23: the reset state is one of the starts. -/
theorem invariantHoldsAtReset : Obligations.InvariantHoldsAtReset := by
  unfold Obligations.InvariantHoldsAtReset
  rw [reset_eq_start]
  exact start_inv (helpers := []) (by decide) List.nodup_nil [] []

end Sys2Proof.Machine
end

section
/-! SUPPORT. Translation read from the regions' side: for legal parameters an access of at least one byte lies in one
region at most, so where it translates to does not depend on the order of the reach (spec/20_memory.md R57, R60, R61). -/

namespace Sys2Proof.Machine

/-- The widths of a data access are positive. -/
theorem width_pos {n : Nat} (h : n ∈ [1, 2, 4, 8]) : 0 < n := by
  revert n
  decide

theorem mem_reachBoth (R : Region) : R ∈ reachBoth := by cases R <;> decide

theorem Region.holds_eq_false_iff (p : Params) (R : Region) (a : Int) (n : Nat) :
    R.holds p a n = false ↔ a < R.base p ∨ (R.base p : Int) + R.size p < a + n := by
  rw [← Bool.not_eq_true, Region.holds_iff]
  omega

/-- No address belongs to two regions, because they share none (R8). -/
theorem Region.eq_of_holds {p : Params} (hp : p.disjoint) {R Q : Region} {a : Int} {n : Nat} (hn : 0 < n)
    (hR : R.holds p a n = true) (hQ : Q.holds p a n = true) : R = Q := by
  have apart : ¬ (Region.addressSpace.holds p a n = true ∧ Region.stack.holds p a n = true) := by
    simp only [Region.holds_iff, Region.base, Region.size]
    omega
  cases R with
  | addressSpace =>
    cases Q with
    | addressSpace => rfl
    | stack => exact absurd ⟨hR, hQ⟩ apart
  | stack =>
    cases Q with
    | addressSpace => exact absurd ⟨hQ, hR⟩ apart
    | stack => rfl

/-- The converse of `translateAccess_some`, whatever the order of the reach. -/
theorem translateAccess_of_mem {p : Params} (hp : p.disjoint) {reach : List Region} {R : Region} (hR : R ∈ reach)
    {a : Int} {n k : Nat} (hn : 0 < n) (ha : a = (R.base p : Int) + k) (hk : k + n ≤ R.size p) :
    translateAccess p reach a n = some (R, k) := by
  have hold : R.holds p a n = true := (Region.holds_iff p R a n).2 (by omega)
  cases h : translateAccess p reach a n with
  | none => rw [translateAccess_none.1 h R hR] at hold; cases hold
  | some found =>
    obtain ⟨Q, j⟩ := found
    obtain ⟨_, hj, hsize⟩ := translateAccess_some h
    obtain rfl : R = Q := Region.eq_of_holds hp hn hold ((Region.holds_iff p Q a n).2 (by omega))
    obtain rfl : k = j := by omega
    rfl

theorem translateAccess_reachAS_none_iff (p : Params) (a : Int) (n : Nat) :
    translateAccess p reachAS a n = none ↔
      a < p.memBase.toNat ∨ (p.memBase.toNat : Int) + p.memSize < a + n := by
  rw [translateAccess_none, reachAS, List.forall_mem_singleton, Region.holds_eq_false_iff]
  rfl

theorem translateAccess_reachBoth_none_iff (p : Params) (a : Int) (n : Nat) :
    translateAccess p reachBoth a n = none ↔
      (a < p.memBase.toNat ∨ (p.memBase.toNat : Int) + p.memSize < a + n) ∧
        (a < p.stackBase.toNat ∨ (p.stackBase.toNat : Int) + p.stackSize < a + n) := by
  rw [translateAccess_none, reachBoth, List.forall_mem_cons, List.forall_mem_singleton, Region.holds_eq_false_iff,
    Region.holds_eq_false_iff]
  rfl

/-- Settles O31: the accesses inside a region by the uniqueness of the region, the others by the two bounds of each
region in reach; the addresses outside the 64-bit space are outside both regions of legal parameters. -/
theorem translateFindsTheRegion : Obligations.TranslateFindsTheRegion := by
  intro p n hp hwidth
  have hn : 0 < n := width_pos hwidth
  obtain ⟨hmem, hstack, hdisj⟩ := hp
  refine ⟨fun k hk => ⟨?_, ?_⟩, fun k hk => ?_, fun a hAS => ⟨?_, fun hSTK => ?_⟩, fun a ha => ?_⟩
  · exact translateAccess_of_mem (R := .addressSpace) hdisj (mem_reachBoth _) hn rfl hk
  · exact translateAccess_of_mem (R := .addressSpace) hdisj (List.mem_singleton_self _) hn rfl hk
  · exact translateAccess_of_mem (R := .stack) hdisj (mem_reachBoth _) hn rfl hk
  · exact (translateAccess_reachAS_none_iff p a n).2 hAS
  · exact (translateAccess_reachBoth_none_iff p a n).2 ⟨hAS, hSTK⟩
  · rw [translateAccess_reachBoth_none_iff]
    omega

end Sys2Proof.Machine
end

section
/-! SUPPORT. Memory is bytes (spec/20_memory.md R51, R53): byte `i` of a number read is the byte at its offset, and after
a write the byte at an offset is a byte of the written value exactly where the write covers its address. -/

namespace Sys2Proof.Machine

open Sys2Proof.Claims

/-! ### Which accesses succeed -/

theorem memRead_eq_ok {s : State} {reach : List Region} {a : Int} {n r : Nat} (h : memRead s reach a n = .ok r) :
    ∃ R k, translateAccess s.params reach a n = some (R, k) ∧ r = natOfBytes (s.bytesAt R k n) := by
  cases ht : translateAccess s.params reach a n with
  | none => rw [memRead_none ht] at h; cases h
  | some found =>
    rw [memRead_some (R := found.1) (k := found.2) ht] at h
    cases h
    exact ⟨found.1, found.2, rfl, rfl⟩

theorem memRead_eq_error {s : State} {reach : List Region} {a : Int} {n : Nat} {c : Cause}
    (h : memRead s reach a n = .error c) : translateAccess s.params reach a n = none ∧ c = .memoryFault a n := by
  cases ht : translateAccess s.params reach a n with
  | none => rw [memRead_none ht] at h; cases h; exact ⟨rfl, rfl⟩
  | some found => rw [memRead_some (R := found.1) (k := found.2) ht] at h; cases h

theorem memWrite_eq_ok {s t : State} {a : Int} {n : Nat} {v : Word} (h : memWrite s a n v = .ok t) :
    ∃ R k, translateAccess s.params reachBoth a n = some (R, k) ∧ t = s.setBytes R k (toBytes n v.toNat) := by
  cases ht : translateAccess s.params reachBoth a n with
  | none => rw [memWrite_none ht] at h; cases h
  | some found =>
    rw [memWrite_some (R := found.1) (k := found.2) ht] at h
    cases h
    exact ⟨found.1, found.2, rfl, rfl⟩

/-! ### Bytes of a number read -/

/-- Byte `i` of the number of a byte list is its entry `i`. -/
theorem byteOf_natOfBytes (bs : List Byte) {i : Nat} (h : i < bs.length) :
    byteOf (natOfBytes bs) i = (bs.getD i 0#8).toNat := by
  have hget := toBytes_getElem bs.length (natOfBytes bs) i (by simpa using h)
  simp only [toBytes_natOfBytes] at hget
  rw [byteOf, ← hget, List.getD_eq_getElem _ _ h]

/-- Byte `i` of the number read from a region is the byte `i` offsets on. -/
theorem byteOf_natOfBytes_bytesAt (s : State) (R : Region) (k : Nat) {n i : Nat} (h : i < n) :
    byteOf (natOfBytes (s.bytesAt R k n)) i = (s.byteAt R (k + i)).toNat := by
  rw [byteOf_natOfBytes _ (by simpa using h), State.bytesAt_getD _ _ _ _ _ h]

/-! ### Bytes after a write -/

/-- A byte after the write of a number: the number's byte where the run covers it, the byte before elsewhere. -/
theorem State.byteAt_setBytes_toBytes (s : State) (R Q : Region) (k j n v : Nat) :
    ((s.setBytes R k (toBytes n v)).byteAt Q j).toNat =
      if Q = R ∧ k ≤ j ∧ j < k + n then byteOf v (j - k) else (s.byteAt Q j).toNat := by
  rw [State.byteAt_setBytes, toBytes_length]
  split
  · rename_i hcov
    have hj : j - k < (toBytes n v).length := by rw [toBytes_length]; omega
    rw [List.getD_eq_getElem _ _ hj, toBytes_getElem, byteOf]
  · rfl

/-- The bytes read inside the write of a number are the number's bytes from there on. -/
theorem State.bytesAt_setBytes_toBytes (s : State) (R : Region) (k n v d m : Nat) (h : d + m ≤ n) :
    (s.setBytes R k (toBytes n v)).bytesAt R (k + d) m = toBytes m (v / 256 ^ d) := by
  induction m generalizing d with
  | zero => rfl
  | succ m ih =>
    have hbyte : (s.setBytes R k (toBytes n v)).byteAt R (k + d) = BitVec.ofNat 8 (v / 256 ^ d) := by
      apply BitVec.eq_of_toNat_eq
      rw [State.byteAt_setBytes_toBytes, if_pos ⟨rfl, by omega, by omega⟩, Nat.add_sub_cancel_left, byteOf,
        BitVec.toNat_ofNat]
    rw [State.bytesAt, toBytes, hbyte, Nat.add_assoc, ih (d + 1) (by omega), Nat.div_div_eq_div_mul, pow_succ]

/-- A run of bytes of a region covers exactly the offsets whose addresses lie in the run of addresses. -/
theorem Region.covers_iff {p : Params} (hp : p.disjoint) {R Q : Region} {k n j : Nat} (hk : k + n ≤ R.size p)
    (hj : j < Q.size p) :
    (Q = R ∧ k ≤ j ∧ j < k + n) ↔
      (R.base p : Int) + k ≤ (Q.base p : Int) + j ∧ (Q.base p : Int) + j < (R.base p : Int) + k + n := by
  constructor
  · rintro ⟨rfl, hlow, hhigh⟩
    omega
  · rintro ⟨hlow, hhigh⟩
    have hQ : Q.holds p ((Q.base p : Int) + j) 1 = true := (Region.holds_iff ..).2 (by omega)
    have hR : R.holds p ((Q.base p : Int) + j) 1 = true := (Region.holds_iff ..).2 (by omega)
    obtain rfl := Region.eq_of_holds hp Nat.one_pos hQ hR
    exact ⟨rfl, by omega, by omega⟩

/-! ### Reads after a write -/

/-- A read after a write, byte by byte and by address, for any two widths. -/
theorem memRead_memWrite_byteOf {s t : State} (hp : s.params.disjoint) {a b : Int} {n m r : Nat} {v : Word}
    (hw : memWrite s a n v = .ok t) (hr : memRead s reachBoth b m = .ok r) :
    ∃ q, memRead t reachBoth b m = .ok q ∧ q < 256 ^ m ∧ ∀ i, i < m →
      byteOf q i = if a ≤ b + i ∧ b + i < a + n then byteOf v.toNat (b + i - a).toNat else byteOf r i := by
  obtain ⟨R, k, hwt, rfl⟩ := memWrite_eq_ok hw
  obtain ⟨Q, j, hrt, rfl⟩ := memRead_eq_ok hr
  obtain ⟨_, ha, hk⟩ := translateAccess_some hwt
  obtain ⟨_, hb, hj⟩ := translateAccess_some hrt
  refine ⟨_, memRead_some (by rw [State.setBytes_params, hrt]), ?_, fun i hi => ?_⟩
  · simpa using natOfBytes_lt ((s.setBytes R k (toBytes n v.toNat)).bytesAt Q j m)
  · have hcov := Region.covers_iff hp hk (show j + i < Q.size s.params by omega)
    rw [byteOf_natOfBytes_bytesAt _ _ _ hi, byteOf_natOfBytes_bytesAt _ _ _ hi, State.byteAt_setBytes_toBytes]
    by_cases hin : Q = R ∧ k ≤ j + i ∧ j + i < k + n
    · have haddr := hcov.1 hin
      obtain ⟨rfl, hlow, hhigh⟩ := hin
      rw [if_pos ⟨rfl, hlow, hhigh⟩, if_pos (by omega), show (b + i - a).toNat = j + i - k by omega]
    · rw [if_neg hin, if_neg fun haddr => hin (hcov.2 (by omega))]

/-- A write changes no fault of a read. -/
theorem memRead_memWrite_error {s t : State} {a b : Int} {n m : Nat} {v : Word} {c : Cause}
    (hw : memWrite s a n v = .ok t) (hr : memRead s reachBoth b m = .error c) :
    memRead t reachBoth b m = .error c := by
  obtain ⟨R, k, _, rfl⟩ := memWrite_eq_ok hw
  obtain ⟨hnone, rfl⟩ := memRead_eq_error hr
  exact memRead_none (by rw [State.setBytes_params, hnone])

/-- A read inside a write: the value shifted down to the first byte read and cut to the width. -/
theorem memRead_memWrite_within {s t : State} (hp : s.params.disjoint) {a : Int} {n : Nat} {v : Word}
    (hw : memWrite s a n v = .ok t) {d m : Nat} (hm : 0 < m) (hd : d + m ≤ n) :
    memRead t reachBoth (a + d) m = .ok (v.toNat / 256 ^ d % 256 ^ m) := by
  obtain ⟨R, k, hwt, rfl⟩ := memWrite_eq_ok hw
  obtain ⟨_, ha, hk⟩ := translateAccess_some hwt
  have hrt : translateAccess s.params reachBoth (a + d) m = some (R, k + d) :=
    translateAccess_of_mem hp (mem_reachBoth R) hm (by push_cast; omega) (by omega)
  rw [memRead_some (by rw [State.setBytes_params, hrt]), State.bytesAt_setBytes_toBytes _ _ _ _ _ _ _ hd,
    natOfBytes_toBytes]

/-- Settles O32: the three laws of a read after a write, and the rule's list as reads inside the write. -/
theorem mixedWidthReadsSeeBytes : Obligations.MixedWidthReadsSeeBytes := by
  refine ⟨fun s t a n v hp _ hw => ⟨fun b m r _ hr => ?_, fun b m c _ hr => ?_, fun d m hm hd => ?_⟩,
    fun s t a hp hw => ?_⟩
  · exact memRead_memWrite_byteOf hp.2.2 hw hr
  · exact memRead_memWrite_error hw hr
  · exact memRead_memWrite_within hp.2.2 hw (width_pos hm) hd
  · have hread : ∀ d m : Nat, 0 < m → d + m ≤ 8 →
        memRead t reachBoth (a + d) m = .ok (0x1122334455667788 / 256 ^ d % 256 ^ m) := fun d m hm hd =>
      memRead_memWrite_within hp.2.2 hw hm hd
    have hstart : ∀ m : Nat, 0 < m → m ≤ 8 →
        memRead t reachBoth a m = .ok (0x1122334455667788 / 256 ^ 0 % 256 ^ m) := fun m hm hd => by
      simpa using hread 0 m hm (by omega)
    exact ⟨hstart 1 (by decide) (by decide), hread 1 1 (by decide) (by decide), hstart 2 (by decide) (by decide),
      hread 2 2 (by decide) (by decide), hstart 4 (by decide) (by decide), hread 4 4 (by decide) (by decide),
      hread 7 1 (by decide) (by decide)⟩

end Sys2Proof.Machine
end

section
/-! SUPPORT. A load depends on the regions it reaches only (spec/20_memory.md R55, R60): replacing the cells of any other
region before it is replacing them after it. -/

namespace Sys2Proof.Machine

theorem State.bytesAt_setCells_other (s : State) {R Q : Region} (h : Q ≠ R) (m : Memory) (k n : Nat) :
    (s.setCells R m).bytesAt Q k n = s.bytesAt Q k n :=
  State.bytesAt_congr _ _ _ _ _ fun _ _ _ => by simp only [State.byteAt, State.setCells_cells_other s R Q m h]

theorem State.setCells_write (s : State) (R : Region) (m : Memory) (d : Reg) (v : Word) (n : Int) :
    ((s.setCells R m).setReg d v).advance n = ((s.setReg d v).advance n).setCells R m := by
  cases R <;> rfl

theorem State.setCells_raise (s : State) (R : Region) (m : Memory) (c : Cause) :
    (s.setCells R m).raise c = (s.raise c).setCells R m := by
  cases R <;> rfl

/-- The cells of a region out of reach do not flow into a load. -/
theorem loadInto_setCells {reach : List Region} {R : Region} (hR : R ∉ reach) (m : Memory) (d : Reg) (a : Int) (n : Nat)
    (s : State) :
    loadInto d reach a n (s.setCells R m) = mapNext (fun t => t.setCells R m) (loadInto d reach a n s) := by
  rcases loadInto_cases d reach a n s with ⟨Q, k, ht, h⟩ | ⟨ht, h⟩
  · have hQ : Q ≠ R := fun e => hR (e ▸ (translateAccess_some ht).1)
    have hread : memRead (s.setCells R m) reach a n = .ok (natOfBytes (s.bytesAt Q k n)) := by
      rw [memRead_some (by rw [State.setCells_params, ht]), State.bytesAt_setCells_other s hQ]
    rw [h, loadInto, hread]
    exact congrArg Host.Outcome.next (s.setCells_write R m d _ 1)
  · have hread : memRead (s.setCells R m) reach a n = .error (.memoryFault a n) :=
      memRead_none (by rw [State.setCells_params, ht])
    rw [h, loadInto, hread]
    exact congrArg Host.Outcome.next (s.setCells_raise R m _)

theorem stack_not_mem_reachAS : Region.stack ∉ reachAS := by decide

theorem loadAbs_setCells_stack (m : Memory) (n : Nat) (imm : ImmField) (s : State) :
    loadAbs n imm (s.setCells .stack m) = mapNext (fun t => t.setCells .stack m) (loadAbs n imm s) := by
  rw [loadAbs, loadAbs, State.setCells_params, loadInto_setCells stack_not_mem_reachAS]

theorem loadInd_setCells_stack (m : Memory) (n : Nat) (src : RegField) (imm : ImmField) (s : State) :
    loadInd n src imm (s.setCells .stack m) = mapNext (fun t => t.setCells .stack m) (loadInd n src imm s) := by
  unfold loadInd
  rcases withReg_cases src s (fun r => loadInto .r0 reachAS (indAddress (s.reg r) imm) n s) with ⟨r, rfl, h⟩ | ⟨hsrc, h⟩
  · rw [h, withReg_field, State.setCells_reg, loadInto_setCells stack_not_mem_reachAS]
  · rw [h, withReg_invalid hsrc, State.setCells_raise, mapNext]

/-- Settles O34: replacing the Stack is replacing the cells of a region that these loads do not reach. -/
theorem absoluteAndIndirectLoadsIgnoreTheStack : Obligations.AbsoluteAndIndirectLoadsIgnoreTheStack := by
  intro i s t m h hi
  have hcomm : exec i (s.setCells .stack m) = mapNext (fun t => t.setCells .stack m) (exec i s) := by
    rcases hi with ⟨imm, rfl | rfl | rfl | rfl⟩ | ⟨src, imm, rfl | rfl | rfl | rfl⟩
    · exact loadAbs_setCells_stack m 4 imm s
    · exact loadAbs_setCells_stack m 2 imm s
    · exact loadAbs_setCells_stack m 1 imm s
    · exact loadAbs_setCells_stack m 8 imm s
    · exact loadInd_setCells_stack m 4 src imm s
    · exact loadInd_setCells_stack m 2 src imm s
    · exact loadInd_setCells_stack m 1 src imm s
    · exact loadInd_setCells_stack m 8 src imm s
  calc exec i { s with stack := m }
      = mapNext (fun t => t.setCells .stack m) (exec i s) := hcomm
    _ = .next { t with stack := m } := by rw [h]; rfl

end Sys2Proof.Machine
end

section
/-! SUPPORT. The step by what the fetch answers (spec/40_execution_loop.md R112 to R116, R121, R122): each check of the
loop gives one rule for the step, and with the seven effects of an execution these say how a step can end. -/

namespace Sys2Proof.Machine

open Sys2Proof.Claims

/-! ### The checks before the fetch -/

/-- The budget check passes exactly where every numeric budget is above the counter (R122). -/
theorem State.budgetSpent_eq_false_iff {s : State} :
    s.budgetSpent = false ↔ ∀ b, s.params.budget = some b → s.icount < b := by
  unfold State.budgetSpent
  split
  · rename_i h; simp [h]
  · rename_i b h; simp [h]

/-- The fetch guard of R112. -/
theorem State.outside_iff {s : State} : s.outside = true ↔ s.pc < 0 ∨ (s.nslots : Int) ≤ s.pc := by
  simp [State.outside]

theorem budgetSpent_of_fetches {s : State} (hs : Fetches s) : s.budgetSpent = false :=
  State.budgetSpent_eq_false_iff.2 hs.budget

theorem outside_of_fetches {s : State} (hs : Fetches s) : s.outside = false :=
  Bool.eq_false_iff.2 fun ho => (State.outside_iff.1 ho).elim (not_lt.2 hs.low) (not_le.2 hs.high)

/-! ### What the fetch answers -/

theorem fetch_of_outside {s : State} (h : s.outside = true) : fetch s = .error .missingReturn := by
  rw [fetch, if_pos h]

theorem fetch_of_decode_ok {s : State} (hs : Fetches s) {i : Instr} {rest : List Byte}
    (h : decode (bytesFromPc s) = .ok (i, rest)) : fetch s = .ok i := by
  rw [bytesFromPc] at h
  simp [fetch, outside_of_fetches hs, h]

theorem fetch_of_unknownOpcode {s : State} (hs : Fetches s) {op : Byte}
    (h : decode (bytesFromPc s) = .error (.unknownOpcode op)) : fetch s = .error (.unknownOpcode op) := by
  rw [bytesFromPc] at h
  simp [fetch, outside_of_fetches hs, h]

theorem fetch_of_noSecondSlot {s : State} (hs : Fetches s) (h : decode (bytesFromPc s) = .error .noSecondSlot) :
    fetch s = .error .truncatedProgram := by
  rw [bytesFromPc] at h
  simp [fetch, outside_of_fetches hs, h]

/-! ### One rule for the step per check -/

/-- A terminal core stays as it is (R277; log entry 8). -/
theorem step_of_terminal {s : State} (hs : s.status ≠ .running) : step s = .next s := by
  unfold step
  split
  · rfl
  · rfl
  · rename_i hr; exact absurd hr hs

theorem step_of_budgetSpent {s : State} (hs : s.status = .running) (hb : s.budgetSpent = true) :
    step s = .next (s.raise .budgetExhausted) := by
  simp [step, hs, hb, raise]

theorem step_of_fetch_error {s : State} (hs : s.status = .running) (hb : s.budgetSpent = false) {c : Cause}
    (h : fetch s = .error c) : step s = .next (s.raise c) := by
  simp [step, hs, hb, h, raise]

theorem step_of_fetch_ok {s : State} (hs : s.status = .running) (hb : s.budgetSpent = false) {i : Instr}
    (h : fetch s = .ok i) : step s = countStep (exec i s) := by
  simp [step, hs, hb, h]

theorem step_of_decode {s : State} (hs : Fetches s) {i : Instr} {rest : List Byte}
    (h : decode (bytesFromPc s) = .ok (i, rest)) : step s = countStep (exec i s) :=
  step_of_fetch_ok hs.running (budgetSpent_of_fetches hs) (fetch_of_decode_ok hs h)

/-! ### How a step ends -/

/-- No step stops the machine: it always answers a next state (log entry 9). -/
theorem step_total (s : State) : ∃ t, step s = .next t := by
  by_cases hs : s.status = .running
  · cases hb : s.budgetSpent with
    | true => exact ⟨_, step_of_budgetSpent hs hb⟩
    | false =>
      cases hf : fetch s with
      | error c => exact ⟨_, step_of_fetch_error hs hb hf⟩
      | ok i =>
        obtain ⟨u, hu, _⟩ := exec_effect i s
        exact ⟨u.counted, by rw [step_of_fetch_ok hs hb hf, hu, countStep]⟩
  · exact ⟨s, step_of_terminal hs⟩

/-- The status an execution leaves: a fault and nothing else changed, the return of `exit`, or the one it found. -/
theorem Effect.status_cases {i : Instr} {s u : State} (h : Effect i s u) :
    (∃ c, u = s.raise c) ∨ u = s.finish ∨ u.status = s.status := by
  cases h with
  | raised c => exact .inl ⟨c, rfl⟩
  | finished _ => exact .inr (.inl rfl)
  | wrote d v _ => exact .inr (.inr (by simp))
  | passed off _ => exact .inr (.inr (by simp))
  | jumped off _ => exact .inr (.inr (by simp))
  | stored R k n v _ => exact .inr (.inr (by simp))
  | missed key _ => exact .inr (.inr (by simp))

/-- Settles O19: what a step can do (`step_cases`), read through the status that the execution leaves. -/
theorem everyStepEndsInOneOfThreeWays : Obligations.EveryStepEndsInOneOfThreeWays := by
  intro s hs
  obtain ⟨t, ht⟩ := step_total s
  refine ⟨t, ht, ?_⟩
  rcases step_cases ht with ⟨hterm, _⟩ | ⟨_, c, rfl⟩ | ⟨_, _, i, u, _, _, he, rfl⟩
  · exact absurd hs hterm
  · exact .inr (.inr ⟨c, rfl⟩)
  · rcases he.status_cases with ⟨c, rfl⟩ | rfl | hu
    · exact .inr (.inr ⟨c, s.counted_raise c⟩)
    · exact .inr (.inl ⟨by simp, by simp, fun q => by simp, fun R k => by simp, by simp⟩)
    · exact .inl (by rw [State.counted_status, hu, hs])

/-! ### The counter and the end of a run -/

/-- A faulted state is not counted, whatever the budget is (R276). -/
theorem State.counted_of_fault {t : State} {c : Cause} (h : t.status = .fault c) : t.counted = t := by
  unfold State.counted
  rw [h]

/-- With a numeric budget a state that is not faulted differs by the counter alone after counting (R29, R116). -/
theorem State.counted_of_budget {t : State} {b : Nat} (hb : t.params.budget = some b)
    (ht : ∀ c, t.status ≠ .fault c) :
    t.counted = { t with icount := t.icount + 1 } := by
  unfold State.counted
  rw [hb]
  split
  · rename_i c hc; exact absurd hc (ht c)
  · contradiction
  · rfl

/-- Settles O12: the decoded instruction is the fetched one, and the counter by its three cases. -/
theorem stepRunsTheDecodedInstruction : Obligations.StepRunsTheDecodedInstruction := by
  intro s i rest hs hd
  have hstep := step_of_decode hs hd
  refine ⟨hstep, fun t ht => ?_⟩
  have hcount : step s = .next t.counted := by rw [hstep, ht, countStep]
  refine ⟨fun hb => ?_, fun ⟨c, hc⟩ => ?_, fun ⟨b, hb⟩ hfault => ?_⟩
  · rw [hcount, t.counted_no_budget hb]
  · rw [hcount, State.counted_of_fault hc]
  · rw [hcount, State.counted_of_budget hb hfault]

/-- A step that leaves the core running found budget left and used one unit of it. -/
theorem step_running_counts {s t : State} {b : Nat} (hb : s.params.budget = some b) (hs : s.status = .running)
    (h : step s = .next t) (ht : t.status = .running) :
    s.icount < b ∧ t.icount = s.icount + 1 ∧ t.params.budget = some b := by
  rcases step_cases h with ⟨hterm, _⟩ | ⟨_, c, rfl⟩ | ⟨_, hspent, i, u, _, hu, _, rfl⟩
  · exact absurd hs hterm
  · cases ht
  · obtain ⟨hparams, _, _, hicount⟩ := exec_keeps hu
    have hub : u.params.budget = some b := by rw [hparams, hb]
    rw [State.counted_status] at ht
    refine ⟨State.budgetSpent_eq_false_iff.1 hspent b hb, ?_, by rw [State.counted_params, hub]⟩
    rw [u.counted_icount_budget b hub (by simp [ht]), hicount]

/-- A run from a terminal state stays there, for any number of steps. -/
theorem run_of_terminal {s : State} (hs : s.status ≠ .running) (n : Nat) : Sys2Proof.core.run n s = .next s := by
  induction n with
  | zero => rfl
  | succ n ih => rw [run_succ Sys2Proof.core n s s (step_of_terminal hs), ih]

/-- More steps than the remaining budget end the run: each step that goes on uses one unit, and the last one raises. -/
theorem run_ends_of_budget {s : State} {b n : Nat} (hb : s.params.budget = some b) (hn : b - s.icount < n) :
    ∃ t : State, Sys2Proof.core.run n s = .next t ∧ t.status ≠ .running := by
  induction n generalizing s with
  | zero => omega
  | succ n ih =>
    by_cases hs : s.status = .running
    · obtain ⟨t, ht⟩ := step_total s
      rw [run_succ Sys2Proof.core n s t ht]
      by_cases htr : t.status = .running
      · obtain ⟨hleft, hcount, htb⟩ := step_running_counts hb hs ht htr
        exact ih htb (by omega)
      · exact ⟨t, run_of_terminal htr n, htr⟩
    · exact ⟨s, run_of_terminal hs _, hs⟩

/-- Settles O21, by induction on the number of steps in `run_ends_of_budget`. -/
theorem budgetEndsEveryRun : Obligations.BudgetEndsEveryRun := fun _ _ _ hb => run_ends_of_budget hb (by omega)

/-- Settles O14: the guard answers before the program is looked at. -/
theorem fetchGuardRaisesMissingReturn : Obligations.FetchGuardRaisesMissingReturn := fun _ hs hbudget hpc =>
  step_of_fetch_error hs (State.budgetSpent_eq_false_iff.2 hbudget) (fetch_of_outside (State.outside_iff.2 hpc))

/-- Settles O10: the load check decides the status of the start, and a faulted core is terminal. -/
theorem partialSlotRejectedAtLoad : Obligations.PartialSlotRejectedAtLoad := by
  refine ⟨fun p program helpers memInit hlen => ?_, fun p program helpers memInit hlen => if_pos hlen,
    fun p helpers memInit => rfl⟩
  have hfault : (State.start p program helpers memInit).status = .fault .truncatedProgram := if_neg hlen
  exact ⟨hfault, step_of_terminal (by simp [hfault])⟩

end Sys2Proof.Machine
end

section
/-! SUPPORT. The two faults of the decoder, and the placing of an instruction, as facts about the bytes from `pc` on
(spec/30_encoding.md R80, R92, R94, spec/40_execution_loop.md R113, R114, R121). -/

namespace Sys2Proof

open Sys2Proof.Claims

/-! ### The head of the bytes -/

/-- Eight bytes hold a slot, whose opcode is the first of them. -/
theorem takeSlot_cons (op : Byte) {rest : List Byte} (h : 7 ≤ rest.length) :
    ∃ f tail, takeSlot (op :: rest) = some (f, tail) ∧ f.opcode = op ∧ rest.length = 7 + tail.length := by
  match rest, h with
  | _ :: _ :: _ :: _ :: _ :: _ :: _ :: tail, _ => exact ⟨_, tail, rfl, rfl, by simp only [List.length_cons]; omega⟩
  | [], h | [_], h | [_, _], h | [_, _, _], h | [_, _, _, _], h | [_, _, _, _, _], h | [_, _, _, _, _, _], h =>
    exact absurd h (by simp)

/-! ### Opcodes -/

/-- The opcodes of R88 to R91 as one number, whose bit `n` is set where the byte `n` is an opcode: so that to test a byte
is one step, where to look for it in the list of R92 is up to 158. -/
def rowOpcodes : Nat := 0x000000003030b0b0b0b0b0b090b000b0bebebebeb1b1b1b1b1b1b1b1b1b090b0

theorem testBit_of_decodeAlu64 {f : Slot} {i : Instr} (h : decodeAlu64 f = some i) :
    rowOpcodes.testBit f.opcode.toNat = true := by
  unfold decodeAlu64 at h
  split at h <;> cases h <;> (rename_i hop; rw [hop]; rfl)

theorem testBit_of_decodeAlu32 {f : Slot} {i : Instr} (h : decodeAlu32 f = some i) :
    rowOpcodes.testBit f.opcode.toNat = true := by
  unfold decodeAlu32 at h
  split at h <;> cases h <;> (rename_i hop; rw [hop]; rfl)

theorem testBit_of_decodeJump {f : Slot} {i : Instr} (h : decodeJump f = some i) :
    rowOpcodes.testBit f.opcode.toNat = true := by
  unfold decodeJump at h
  split at h <;> cases h <;> (rename_i hop; rw [hop]; rfl)

theorem testBit_of_decodeLoadStore {f : Slot} {i : Instr} (h : decodeLoadStore f = some i) :
    rowOpcodes.testBit f.opcode.toNat = true := by
  unfold decodeLoadStore at h
  split at h <;> cases h <;> (rename_i hop; rw [hop]; rfl)

/-- What a table decodes has an opcode of a row. -/
theorem testBit_of_decodeSlot {f : Slot} {i : Instr} (h : decodeSlot f = some i) :
    rowOpcodes.testBit f.opcode.toNat = true := by
  change (decodeAlu64 f <|> decodeAlu32 f <|> decodeJump f <|> decodeLoadStore f) = some i at h
  simp only [Option.orElse_eq_some] at h
  rcases h with h | ⟨_, h | ⟨_, h | ⟨_, h⟩⟩⟩
  · exact testBit_of_decodeAlu64 h
  · exact testBit_of_decodeAlu32 h
  · exact testBit_of_decodeJump h
  · exact testBit_of_decodeLoadStore h

/-- No byte of R92 is the opcode of a row. -/
theorem testBit_of_unknown : ∀ n ∈ unknownOpcodes, rowOpcodes.testBit n = false := by
  simp only [unknownOpcodes, List.forall_mem_append]
  decide

theorem decodeSlot_of_unknown {f : Slot} (h : f.opcode.toNat ∈ unknownOpcodes) : decodeSlot f = none :=
  Option.eq_none_iff_forall_ne_some.2 fun _ hi =>
    Bool.false_ne_true ((testBit_of_unknown _ h).symm.trans (testBit_of_decodeSlot hi))

theorem ne_lddwOpcode_of_unknown {op : Byte} (h : op.toNat ∈ unknownOpcodes) : op ≠ lddwOpcode := by
  rintro rfl
  exact absurd h (by decide)

theorem decode_of_unknown {op : Byte} (hop : op.toNat ∈ unknownOpcodes) {rest : List Byte} (h : 7 ≤ rest.length) :
    decode (op :: rest) = .error (.unknownOpcode op) := by
  obtain ⟨f, tail, hslot, rfl, _⟩ := takeSlot_cons op h
  simp [decode, hslot, ne_lddwOpcode_of_unknown hop, decodeSlot_of_unknown hop]

theorem decode_lddw_short {rest : List Byte} (h : 7 ≤ rest.length) (hshort : rest.length < 15) :
    decode (lddwOpcode :: rest) = .error .noSecondSlot := by
  obtain ⟨f, tail, hslot, hop, htail⟩ := takeSlot_cons lddwOpcode h
  simp [decode, hslot, hop, takeSlot_short (bytes := tail) (by omega)]

/-! ### Bytes behind the instruction -/

theorem takeSlot_append {bytes rest : List Byte} {f : Slot} (h : takeSlot bytes = some (f, rest)) (tail : List Byte) :
    takeSlot (bytes ++ tail) = some (f, rest ++ tail) := by
  unfold takeSlot at h
  split at h
  · cases h; rfl
  · cases h

/-- What follows the bytes of an instruction does not change it and is left over. -/
theorem decode_append {bytes rest : List Byte} {i : Instr} (h : decode bytes = .ok (i, rest)) (tail : List Byte) :
    decode (bytes ++ tail) = .ok (i, rest ++ tail) := by
  unfold decode at h
  split at h
  · cases h
  · rename_i f after hf
    have hf' := takeSlot_append hf tail
    split at h
    · rename_i hop
      split at h
      · cases h
      · rename_i g after' hg
        cases h
        simp [decode, hf', hop, takeSlot_append hg tail]
    · rename_i hop
      split at h
      · cases h
      · rename_i j hj
        cases h
        simp [decode, hf', hop, hj]

theorem bytesOfNat_length (n w : Nat) : (bytesOfNat n w).length = n := by
  induction n generalizing w with
  | zero => rfl
  | succ n ih => rw [bytesOfNat, List.length_cons, ih]

theorem decodeTableWord_eq_some {nbits w : Nat} {i : Instr} (h : decodeTableWord nbits w = some i) :
    ∃ rest, decode (bytesOfNat 16 (w % 2 ^ nbits)) = .ok (i, rest) := by
  unfold decodeTableWord at h
  split at h
  · rename_i j rest hd
    cases h
    exact ⟨rest, hd⟩
  · cases h

end Sys2Proof

namespace Sys2Proof.Machine

open Sys2Proof.Claims

/-! ### The bytes from `pc` on -/

theorem bytesFromPc_length (s : State) : (bytesFromPc s).length = s.program.length - 8 * s.pc.toNat :=
  List.length_drop

/-- A core that fetches inside the program has the whole first slot before it. -/
theorem bytesFromPc_length_of_fetches {s : State} (hs : Fetches s) : 8 ≤ (bytesFromPc s).length := by
  have hlow := hs.low
  have hhigh : s.pc < ((s.program.length / 8 : Nat) : Int) := hs.high
  rw [bytesFromPc_length]
  omega

/-- Settles O15: the slot at `pc` is whole, and its first byte alone selects no instruction. -/
theorem unknownOpcodeFaults : Obligations.UnknownOpcodeFaults := by
  intro s op rest hs hbytes hop
  have hlen : 7 ≤ rest.length := by simpa [hbytes] using bytesFromPc_length_of_fetches hs
  have hdecode : decode (bytesFromPc s) = .error (.unknownOpcode op) := by rw [hbytes, decode_of_unknown hop hlen]
  exact step_of_fetch_error hs.running (budgetSpent_of_fetches hs) (fetch_of_unknownOpcode hs hdecode)

/-- Settles O16: the last slot of a program of whole slots is the eight bytes before its end. -/
theorem lddwWithoutSecondSlotFaults : Obligations.LddwWithoutSecondSlotFaults := by
  intro s rest hs hwhole hlast hbytes
  have hnslots : s.nslots = s.program.length / 8 := rfl
  have hlow := hs.low
  have hlen : rest.length = 7 := by
    have h := bytesFromPc_length s
    rw [hbytes, List.length_cons] at h
    omega
  have hdecode : decode (bytesFromPc s) = .error .noSecondSlot := by
    rw [hbytes]
    exact decode_lddw_short (by omega) (by omega)
  exact step_of_fetch_error hs.running (budgetSpent_of_fetches hs) (fetch_of_noSecondSlot hs hdecode)

/-! ### A placed instruction -/

theorem drop_overlay (program : List Byte) (k : Nat) (bytes : List Byte) :
    (overlay program k bytes).drop k = bytes ++ program.drop (k + bytes.length) := by
  rw [overlay, List.append_assoc]
  apply List.drop_left'
  simp only [List.length_append, List.length_take, List.length_replicate]
  omega

theorem bytesFromPc_placeInstr (s : State) (bytes : List Byte) :
    bytesFromPc (s.placeInstr bytes) = bytes ++ s.program.drop (8 * s.pc.toNat + bytes.length) :=
  drop_overlay s.program (8 * s.pc.toNat) bytes

/-- The core can fetch an instruction placed by at least one slot of bytes. -/
theorem fetches_placeInstr (s : State) {bytes : List Byte} (h : 8 ≤ bytes.length) : Fetches (s.placeInstr bytes) where
  running := rfl
  budget b hb := by
    cases hspent : s.budgetSpent with
    | true => simp [State.placeInstr, hspent] at hb
    | false => exact State.budgetSpent_eq_false_iff.1 hspent b (by simpa [State.placeInstr, hspent] using hb)
  low := Int.natCast_nonneg _
  high := by
    have hlen := bytesFromPc_length (s.placeInstr bytes)
    rw [bytesFromPc_placeInstr, List.length_append] at hlen
    have hpc : (s.placeInstr bytes).pc = s.pc.toNat := rfl
    rw [State.nslots, hpc]
    rw [hpc, Int.toNat_natCast] at hlen
    omega

/-- Settles O13: the sixteen bytes placed at `pc` decode as they do alone. -/
theorem placedWordRunsNext : Obligations.PlacedWordRunsNext := by
  intro s nbits w i h
  obtain ⟨rest, hd⟩ := decodeTableWord_eq_some h
  have hs : Fetches (s.withFetchWord nbits w) := fetches_placeInstr s (by rw [bytesOfNat_length]; decide)
  have hbytes := bytesFromPc_placeInstr s (bytesOfNat 16 (w % 2 ^ nbits))
  exact step_of_decode hs ((congrArg decode hbytes).trans (decode_append hd _))

/-! ### The register check -/

/-- An outcome is the fault of the register check where a used field names no register, `dst` before `src` (R115). -/
def ChecksFields (dst src : Option RegField) (s : State) (r : Result) : Prop :=
  (∀ v, dst = some v → 10 < v.toNat → r = .next (s.raise (.invalidRegister v))) ∧
  (∀ v, src = some v → 10 < v.toNat → (∀ d, dst = some d → d.toNat ≤ 10) →
    r = .next (s.raise (.invalidRegister v)))

theorem checksFields_none (s : State) (r : Result) : ChecksFields none none s r := by
  simp [ChecksFields]

theorem withReg_checksDst (f : RegField) (s : State) (k : Reg → Result) :
    ChecksFields (some f) none s (withReg f s k) := by
  refine ⟨fun v hv hbad => ?_, fun v hv => nomatch hv⟩
  cases hv
  exact withReg_invalid hbad s k

theorem withReg_checksSrc (f : RegField) (s : State) (k : Reg → Result) :
    ChecksFields none (some f) s (withReg f s k) := by
  refine ⟨fun v hv => (nomatch hv), fun v hv hbad _ => ?_⟩
  cases hv
  exact withReg_invalid hbad s k

theorem withRegs_checks (f g : RegField) (s : State) (k : Reg → Reg → Result) :
    ChecksFields (some f) (some g) s (withRegs f g s k) := by
  refine ⟨fun v hv hbad => ?_, fun v hv hbad hdst => ?_⟩
  · cases hv
    exact withRegs_invalid_dst hbad g s k
  · cases hv
    rcases withReg_cases f s (fun d => withReg g s fun r => k d r) with ⟨d, rfl, _⟩ | ⟨hbad', _⟩
    · exact withRegs_invalid_src d hbad s k
    · exact absurd (hdst f rfl) (not_le.2 hbad')

/-- Every form begins with the check of the fields it uses. -/
theorem exec_checksFields (i : Instr) (s : State) : ChecksFields i.usedDst i.usedSrc s (exec i s) := by
  cases i with
  | add64Imm dst _ | sub64Imm dst _ | mul64Imm dst _ | div64Imm dst _ | or64Imm dst _ | and64Imm dst _
  | lsh64Imm dst _ | rsh64Imm dst _ | neg64 dst | mod64Imm dst _ | xor64Imm dst _ | mov64Imm dst _ | arsh64Imm dst _
  | add32Imm dst _ | sub32Imm dst _ | mul32Imm dst _ | div32Imm dst _ | or32Imm dst _ | and32Imm dst _
  | lsh32Imm dst _ | rsh32Imm dst _ | neg32 dst | mod32Imm dst _ | xor32Imm dst _ | mov32Imm dst _ | arsh32Imm dst _
  | le dst _ | be dst _
  | jeqImm dst _ _ | jgtImm dst _ _ | jgeImm dst _ _ | jsetImm dst _ _ | jneImm dst _ _ | jsgtImm dst _ _
  | jsgeImm dst _ _ | jltImm dst _ _ | jleImm dst _ _ | jsltImm dst _ _ | jsleImm dst _ _
  | lddw dst _ _ | stw dst _ _ | sth dst _ _ | stb dst _ _ | stdw dst _ _ => exact withReg_checksDst dst s _
  | add64Reg dst src | sub64Reg dst src | mul64Reg dst src | div64Reg dst src | or64Reg dst src | and64Reg dst src
  | lsh64Reg dst src | rsh64Reg dst src | mod64Reg dst src | xor64Reg dst src | mov64Reg dst src | arsh64Reg dst src
  | add32Reg dst src | sub32Reg dst src | mul32Reg dst src | div32Reg dst src | or32Reg dst src | and32Reg dst src
  | lsh32Reg dst src | rsh32Reg dst src | mod32Reg dst src | xor32Reg dst src | mov32Reg dst src | arsh32Reg dst src
  | jeqReg dst src _ | jgtReg dst src _ | jgeReg dst src _ | jsetReg dst src _ | jneReg dst src _ | jsgtReg dst src _
  | jsgeReg dst src _ | jltReg dst src _ | jleReg dst src _ | jsltReg dst src _ | jsleReg dst src _
  | ldxw dst src _ | ldxh dst src _ | ldxb dst src _ | ldxdw dst src _
  | stxw dst _ src | stxh dst _ src | stxb dst _ src | stxdw dst _ src => exact withRegs_checks dst src s _
  | ldindw src _ | ldindh src _ | ldindb src _ | ldinddw src _ => exact withReg_checksSrc src s _
  | ja _ | call _ | exit | ldabsw _ | ldabsh _ | ldabsb _ | ldabsdw _ => exact checksFields_none s _

/-- Settles O17, form by form in `exec_checksFields`. -/
theorem registerCheckPrecedesExecution : Obligations.RegisterCheckPrecedesExecution := fun i s =>
  exec_checksFields i s

end Sys2Proof.Machine
end

section
/-! SUPPORT. The 32-bit ALU family (spec/42_alu32.md R160 to R188): each form proved once for any operation, the
operations as numbers, and the 32-bit instruction beside its 64-bit twin. -/

namespace Sys2Proof.Machine

open Sys2Proof.Claims

namespace Alu32

/-! ### The operations as numbers (R16, R131 to R133) -/

theorem word_toNat (a : Word) : word a.toNat = a := (BitVec.ofNat_toNat 64 a).trans (BitVec.setWidth_eq a)

theorem word_emod (x : Int) : word (x % 2 ^ 64).toNat = BitVec.ofInt 64 x := by
  rw [← word_toNat (BitVec.ofInt 64 x), BitVec.toNat_ofInt, Nat.cast_pow, Nat.cast_ofNat]

theorem signed64_toNat (a : Word) : signed64 a.toNat = a.toInt := by
  rw [BitVec.toInt_eq_toNat_cond, signed64]
  split <;> split <;> omega

/-- `sext_64` read as a signed number is the immediate, so its pattern is the immediate modulo `2^64`. -/
theorem toNat_sextImm (imm : ImmField) : (sextImm imm).toNat = sext64 imm := by
  have hsigned : (sextImm imm).toInt = imm.toInt := BitVec.toInt_signExtend_of_le (by decide)
  calc (sextImm imm).toNat = (BitVec.ofInt 64 (sextImm imm).toInt).toNat := by rw [BitVec.ofInt_toInt]
    _ = ((sextImm imm).toInt % 2 ^ 64).toNat := BitVec.toNat_ofInt _
    _ = sext64 imm := by rw [hsigned, sext64]

/-- An operation on words is this function on the numbers they stand for. -/
def Computes (op : Word → Word → Word) (f : Nat → Nat → Nat) : Prop :=
  ∀ a b : Word, op a b = word (f a.toNat b.toNat)

theorem Computes.of_toNat {op : Word → Word → Word} {f : Nat → Nat → Nat}
    (h : ∀ a b, (op a b).toNat = f a.toNat b.toNat) : Computes op f := fun a b => by
  rw [← h, word_toNat]

theorem computes_add : Computes addResult addVal := .of_toNat BitVec.toNat_add

theorem computes_sub : Computes subResult subVal := .of_toNat fun a b => by
  rw [subResult, subVal, BitVec.toNat_sub]
  omega

theorem computes_mul : Computes mulResult mulVal := .of_toNat BitVec.toNat_mul

theorem computes_div : Computes divResult divVal := .of_toNat fun _ _ => BitVec.toNat_udiv

theorem computes_mod : Computes modResult modVal := .of_toNat fun _ _ => BitVec.toNat_umod

theorem computes_or : Computes orResult orVal := .of_toNat BitVec.toNat_or

theorem computes_and : Computes andResult andVal := .of_toNat BitVec.toNat_and

theorem computes_xor : Computes xorResult xorVal := .of_toNat BitVec.toNat_xor

theorem computes_mov : Computes movResult movVal := .of_toNat fun _ _ => rfl

theorem computes_lsh : Computes lshResult lshVal := .of_toNat fun a b => by
  rw [lshResult, lshVal, BitVec.toNat_shiftLeft, Nat.shiftLeft_eq, shiftAmount]

theorem computes_rsh : Computes rshResult rshVal := .of_toNat fun a b => by
  rw [rshResult, rshVal, BitVec.toNat_ushiftRight, Nat.shiftRight_eq_div_pow, shiftAmount]

/-- Copies of bit 63 from the left: the signed number divided by the power of two, rounded down. -/
theorem computes_arsh : Computes arshResult arshVal := fun a b => by
  have hsigned : (arshResult a b).toInt = signed64 a.toNat / 2 ^ (b.toNat % 64) := by
    rw [arshResult, BitVec.toInt_sshiftRight, Int.shiftRight_eq_div_pow, signed64_toNat, shiftAmount, Nat.cast_pow,
      Nat.cast_ofNat]
  rw [arshVal, ← hsigned, word_emod, BitVec.ofInt_toInt]

/-- The twin computes the masked function: the mask on words is the mask on numbers (R160). -/
theorem Computes.masked {op : Word → Word → Word} {f : Nat → Nat → Nat} (h : Computes op f) :
    Computes (masked op) (low32 f) := fun a b => by
  rw [Machine.masked, mask32, h a b, low32, word, word, BitVec.ofNat_and]

/-! ### The forms (R83, R115, R130, R132) -/

/-- The tables leave the opcode of `lddw` out, so what they decode is one slot. -/
theorem decodesAs_of_decodeSlot {code : Byte} {mk : Slot → Instr}
    (h : ∀ w : Slot, decodeSlot { w with opcode := code } = some (mk w)) : DecodesAs code mk := by
  have hcode : code ≠ lddwOpcode := by
    rintro rfl
    exact nomatch h (Slot.blank 0)
  intro w rest
  simp [decode, takeSlot_bytes, hcode, h]

/-- What every ALU form ends in has the frame of a register write. -/
theorem writesReg_setReg (s : State) (d : Reg) (v : Word) :
    WritesReg s ((s.setReg d v).advance 1) d v (s.pc + 1) where
  dest := by simp
  others q hq := by simp [State.setReg_reg, hq]
  pc := by simp
  bytes R k := by simp
  rest := by constructor <;> simp

theorem checksBoth_withRegs (k : State → Reg → Reg → Result) :
    ChecksBoth (fun dst src s => withRegs dst src s (k s)) :=
  ⟨fun _ src s hbad => withRegs_invalid_dst hbad src s _, fun d _ s hbad => withRegs_invalid_src d hbad s _⟩

theorem aluImm_field (op : Word → Word → Word) (d : Reg) (imm : ImmField) (s : State) :
    aluImm op d.field imm s = .next ((s.setReg d (op (s.reg d) (sextImm imm))).advance 1) :=
  withReg_field d s _

theorem aluReg_field (op : Word → Word → Word) (d r : Reg) (s : State) :
    aluReg op d.field r.field s = .next ((s.setReg d (op (s.reg d) (s.reg r))).advance 1) :=
  withRegs_field d r s _

theorem divideInto_of_ne_zero (op : Word → Word → Word) (d : Reg) {b : Word} (hb : b.toNat ≠ 0) (s : State) :
    divideInto op d b s = .next ((s.setReg d (op (s.reg d) b)).advance 1) :=
  if_neg fun h => hb (by rw [h, BitVec.toNat_zero])

theorem divideInto_of_zero (op : Word → Word → Word) (d : Reg) {b : Word} (hb : b.toNat = 0) (s : State) :
    divideInto op d b s = .next (s.raise .divideByZero) :=
  if_pos (BitVec.eq_of_toNat_eq hb)

theorem divImm_field (op : Word → Word → Word) (d : Reg) (imm : ImmField) (s : State) :
    divImm op d.field imm s = divideInto op d (sextImm imm) s := withReg_field d s _

theorem divReg_field (op : Word → Word → Word) (d r : Reg) (s : State) :
    divReg op d.field r.field s = divideInto op d (s.reg r) s := withRegs_field d r s _

section Rules

variable {code : Byte} {op : Word → Word → Word} {f : Nat → Nat → Nat}

theorem aluImmRule_of_exec {mk : RegField → ImmField → Instr} (hop : Computes op f)
    (hdecode : ∀ w : Slot, decodeSlot { w with opcode := code } = some (mk w.dst w.imm))
    (hexec : ∀ dst imm s, exec (mk dst imm) s = aluImm op dst imm s) : AluImmRule code mk f := by
  refine ⟨decodesAs_of_decodeSlot hdecode, fun d imm s => ?_, fun v imm s hbad => ?_⟩
  · rw [hexec, aluImm_field, ← toNat_sextImm, ← hop]
    exact ⟨_, rfl, writesReg_setReg s d _⟩
  · rw [hexec]
    exact withReg_invalid hbad s _

theorem aluRegRule_of_exec {mk : RegField → RegField → Instr} (hop : Computes op f)
    (hdecode : ∀ w : Slot, decodeSlot { w with opcode := code } = some (mk w.dst w.src))
    (hexec : ∀ dst src s, exec (mk dst src) s = aluReg op dst src s) : AluRegRule code mk f := by
  refine ⟨decodesAs_of_decodeSlot hdecode, fun d r s => ?_, ?_⟩
  · rw [hexec, aluReg_field, ← hop]
    exact ⟨_, rfl, writesReg_setReg s d _⟩
  · simp only [hexec]
    exact checksBoth_withRegs _

theorem divImmRule_of_exec {mk : RegField → ImmField → Instr} (hop : Computes op f)
    (hdecode : ∀ w : Slot, decodeSlot { w with opcode := code } = some (mk w.dst w.imm))
    (hexec : ∀ dst imm s, exec (mk dst imm) s = divImm op dst imm s) : DivImmRule code mk f := by
  refine ⟨decodesAs_of_decodeSlot hdecode, fun d imm s hb => ?_, fun d imm s hb => ?_, fun v imm s hbad => ?_⟩
  · rw [← toNat_sextImm] at hb ⊢
    rw [hexec, divImm_field, divideInto_of_ne_zero op d hb, ← hop]
    exact ⟨_, rfl, writesReg_setReg s d _⟩
  · rw [← toNat_sextImm] at hb
    rw [hexec, divImm_field, divideInto_of_zero op d hb]
  · rw [hexec]
    exact withReg_invalid hbad s _

theorem divRegRule_of_exec {mk : RegField → RegField → Instr} (hop : Computes op f)
    (hdecode : ∀ w : Slot, decodeSlot { w with opcode := code } = some (mk w.dst w.src))
    (hexec : ∀ dst src s, exec (mk dst src) s = divReg op dst src s) : DivRegRule code mk f := by
  refine ⟨decodesAs_of_decodeSlot hdecode, fun d r s hb => ?_, fun d r s hb => ?_, ?_⟩
  · rw [hexec, divReg_field, divideInto_of_ne_zero op d hb, ← hop]
    exact ⟨_, rfl, writesReg_setReg s d _⟩
  · rw [hexec, divReg_field, divideInto_of_zero op d hb]
  · simp only [hexec]
    exact checksBoth_withRegs _

end Rules

/-! ### The 32-bit instruction beside its 64-bit twin (R160) -/

/-- Two outcomes are those of a 64-bit instruction and of its 32-bit twin with the same `dst` field: both the same
fault, or one register write each, the second that of the masked value. -/
def TwinOutcomes (dst : RegField) (s : State) (wide narrow : Result) : Prop :=
  ∃ t u, wide = .next t ∧ narrow = .next u ∧
    ((∃ c, t = s.raise c ∧ u = s.raise c) ∨
      (∃ d : Reg, dst = d.field ∧ WritesReg s t d (t.reg d) (s.pc + 1) ∧
        WritesReg s u d (t.reg d &&& 0x00000000FFFFFFFF#64) (s.pc + 1) ∧ (u.reg d).toNat < 2 ^ 32))

theorem maskedTwin_iff {β : Type} {wide narrow : RegField → β → Instr} :
    MaskedTwin β wide narrow ↔ ∀ dst b s, TwinOutcomes dst s (exec (wide dst b) s) (exec (narrow dst b) s) := .rfl

/-- The mask leaves bits 63:32 zero. -/
theorem toNat_mask32_lt (v : Word) : (mask32 v).toNat < 2 ^ 32 := by
  have hle : (mask32 v).toNat ≤ 0xFFFFFFFF := by
    rw [mask32, BitVec.toNat_and]
    exact Nat.and_le_right
  omega

theorem twinOutcomes_raise (dst : RegField) (s : State) (c : Cause) : TwinOutcomes dst s (raise c s) (raise c s) :=
  ⟨_, _, rfl, rfl, .inl ⟨c, rfl, rfl⟩⟩

theorem twinOutcomes_write (d : Reg) (s : State) (v : Word) :
    TwinOutcomes d.field s (.next ((s.setReg d v).advance 1)) (.next ((s.setReg d (mask32 v)).advance 1)) := by
  refine ⟨_, _, rfl, rfl, .inr ⟨d, rfl, ?_⟩⟩
  have hwide := writesReg_setReg s d v
  have hnarrow := writesReg_setReg s d (mask32 v)
  rw [hwide.dest, hnarrow.dest]
  exact ⟨hwide, hnarrow, toNat_mask32_lt v⟩

/-- Both instructions check a field alike, so it is enough to compare them where the field names a register. -/
theorem twinOutcomes_withReg {dst f : RegField} {s : State} {k k' : Reg → Result}
    (h : ∀ r, f = r.field → TwinOutcomes dst s (k r) (k' r)) :
    TwinOutcomes dst s (withReg f s k) (withReg f s k') := by
  rcases withReg_cases f s k with ⟨r, rfl, hk⟩ | ⟨hbad, hk⟩
  · rw [hk, withReg_field]
    exact h r rfl
  · rw [hk, withReg_invalid hbad]
    exact twinOutcomes_raise dst s _

theorem twinOutcomes_withRegs {dst src : RegField} {s : State} {k k' : Reg → Reg → Result}
    (h : ∀ d r, TwinOutcomes d.field s (k d r) (k' d r)) :
    TwinOutcomes dst s (withRegs dst src s k) (withRegs dst src s k') :=
  twinOutcomes_withReg fun d hd => twinOutcomes_withReg fun r _ => hd ▸ h d r

theorem twinOutcomes_divideInto (op : Word → Word → Word) (d : Reg) (b : Word) (s : State) :
    TwinOutcomes d.field s (divideInto op d b s) (divideInto (masked op) d b s) := by
  by_cases hb : b.toNat = 0
  · rw [divideInto_of_zero _ d hb, divideInto_of_zero _ d hb]
    exact twinOutcomes_raise d.field s _
  · rw [divideInto_of_ne_zero _ d hb, divideInto_of_ne_zero _ d hb]
    exact twinOutcomes_write d s _

section Twins

variable {op : Word → Word → Word}

theorem maskedTwin_of_aluImm {wide narrow : RegField → ImmField → Instr}
    (hwide : ∀ dst imm s, exec (wide dst imm) s = aluImm op dst imm s)
    (hnarrow : ∀ dst imm s, exec (narrow dst imm) s = aluImm (masked op) dst imm s) :
    MaskedTwin ImmField wide narrow := maskedTwin_iff.2 fun dst imm s => by
  rw [hwide, hnarrow]
  exact twinOutcomes_withReg fun d hd => hd ▸ twinOutcomes_write d s _

theorem maskedTwin_of_aluReg {wide narrow : RegField → RegField → Instr}
    (hwide : ∀ dst src s, exec (wide dst src) s = aluReg op dst src s)
    (hnarrow : ∀ dst src s, exec (narrow dst src) s = aluReg (masked op) dst src s) :
    MaskedTwin RegField wide narrow := maskedTwin_iff.2 fun dst src s => by
  rw [hwide, hnarrow]
  exact twinOutcomes_withRegs fun d _ => twinOutcomes_write d s _

theorem maskedTwin_of_divImm {wide narrow : RegField → ImmField → Instr}
    (hwide : ∀ dst imm s, exec (wide dst imm) s = divImm op dst imm s)
    (hnarrow : ∀ dst imm s, exec (narrow dst imm) s = divImm (masked op) dst imm s) :
    MaskedTwin ImmField wide narrow := maskedTwin_iff.2 fun dst imm s => by
  rw [hwide, hnarrow]
  exact twinOutcomes_withReg fun d hd => hd ▸ twinOutcomes_divideInto op d _ s

theorem maskedTwin_of_divReg {wide narrow : RegField → RegField → Instr}
    (hwide : ∀ dst src s, exec (wide dst src) s = divReg op dst src s)
    (hnarrow : ∀ dst src s, exec (narrow dst src) s = divReg (masked op) dst src s) :
    MaskedTwin RegField wide narrow := maskedTwin_iff.2 fun dst src s => by
  rw [hwide, hnarrow]
  exact twinOutcomes_withRegs fun d r => twinOutcomes_divideInto op d (s.reg r) s

end Twins

theorem maskedTwin_neg : MaskedTwin Unit (fun d _ => .neg64 d) (fun d _ => .neg32 d) :=
  maskedTwin_iff.2 fun _ _ s => twinOutcomes_withReg fun d hd => hd ▸ twinOutcomes_write d s (negResult (s.reg d))

end Alu32

open Alu32

/-- Settles O38: the immediate form, with each operation computing its masked function. -/
theorem alu32ImmediateForms : Obligations.Alu32ImmediateForms :=
  ⟨aluImmRule_of_exec computes_add.masked (fun _ => rfl) fun _ _ _ => rfl,
    aluImmRule_of_exec computes_sub.masked (fun _ => rfl) fun _ _ _ => rfl,
    aluImmRule_of_exec computes_mul.masked (fun _ => rfl) fun _ _ _ => rfl,
    aluImmRule_of_exec computes_or.masked (fun _ => rfl) fun _ _ _ => rfl,
    aluImmRule_of_exec computes_and.masked (fun _ => rfl) fun _ _ _ => rfl,
    aluImmRule_of_exec computes_lsh.masked (fun _ => rfl) fun _ _ _ => rfl,
    aluImmRule_of_exec computes_rsh.masked (fun _ => rfl) fun _ _ _ => rfl,
    aluImmRule_of_exec computes_xor.masked (fun _ => rfl) fun _ _ _ => rfl,
    aluImmRule_of_exec computes_mov.masked (fun _ => rfl) fun _ _ _ => rfl,
    aluImmRule_of_exec computes_arsh.masked (fun _ => rfl) fun _ _ _ => rfl⟩

/-- Settles O39: the register form, with the same ten operations. -/
theorem alu32RegisterForms : Obligations.Alu32RegisterForms :=
  ⟨aluRegRule_of_exec computes_add.masked (fun _ => rfl) fun _ _ _ => rfl,
    aluRegRule_of_exec computes_sub.masked (fun _ => rfl) fun _ _ _ => rfl,
    aluRegRule_of_exec computes_mul.masked (fun _ => rfl) fun _ _ _ => rfl,
    aluRegRule_of_exec computes_or.masked (fun _ => rfl) fun _ _ _ => rfl,
    aluRegRule_of_exec computes_and.masked (fun _ => rfl) fun _ _ _ => rfl,
    aluRegRule_of_exec computes_lsh.masked (fun _ => rfl) fun _ _ _ => rfl,
    aluRegRule_of_exec computes_rsh.masked (fun _ => rfl) fun _ _ _ => rfl,
    aluRegRule_of_exec computes_xor.masked (fun _ => rfl) fun _ _ _ => rfl,
    aluRegRule_of_exec computes_mov.masked (fun _ => rfl) fun _ _ _ => rfl,
    aluRegRule_of_exec computes_arsh.masked (fun _ => rfl) fun _ _ _ => rfl⟩

/-- Settles O40: the two forms that test the divisor, with the masked quotient and the masked remainder. -/
theorem divideAndRemainder32 : Obligations.DivideAndRemainder32 :=
  ⟨divImmRule_of_exec computes_div.masked (fun _ => rfl) fun _ _ _ => rfl,
    divRegRule_of_exec computes_div.masked (fun _ => rfl) fun _ _ _ => rfl,
    divImmRule_of_exec computes_mod.masked (fun _ => rfl) fun _ _ _ => rfl,
    divRegRule_of_exec computes_mod.masked (fun _ => rfl) fun _ _ _ => rfl⟩

/-- Settles O42: pair by pair, in the order of the opcodes, each with the operation that the two share. -/
theorem alu32MasksItsTwin : Obligations.Alu32MasksItsTwin :=
  ⟨maskedTwin_of_aluImm (op := addResult) (fun _ _ _ => rfl) fun _ _ _ => rfl,
    maskedTwin_of_aluReg (op := addResult) (fun _ _ _ => rfl) fun _ _ _ => rfl,
    maskedTwin_of_aluImm (op := subResult) (fun _ _ _ => rfl) fun _ _ _ => rfl,
    maskedTwin_of_aluReg (op := subResult) (fun _ _ _ => rfl) fun _ _ _ => rfl,
    maskedTwin_of_aluImm (op := mulResult) (fun _ _ _ => rfl) fun _ _ _ => rfl,
    maskedTwin_of_aluReg (op := mulResult) (fun _ _ _ => rfl) fun _ _ _ => rfl,
    maskedTwin_of_divImm (op := divResult) (fun _ _ _ => rfl) fun _ _ _ => rfl,
    maskedTwin_of_divReg (op := divResult) (fun _ _ _ => rfl) fun _ _ _ => rfl,
    maskedTwin_of_aluImm (op := orResult) (fun _ _ _ => rfl) fun _ _ _ => rfl,
    maskedTwin_of_aluReg (op := orResult) (fun _ _ _ => rfl) fun _ _ _ => rfl,
    maskedTwin_of_aluImm (op := andResult) (fun _ _ _ => rfl) fun _ _ _ => rfl,
    maskedTwin_of_aluReg (op := andResult) (fun _ _ _ => rfl) fun _ _ _ => rfl,
    maskedTwin_of_aluImm (op := lshResult) (fun _ _ _ => rfl) fun _ _ _ => rfl,
    maskedTwin_of_aluReg (op := lshResult) (fun _ _ _ => rfl) fun _ _ _ => rfl,
    maskedTwin_of_aluImm (op := rshResult) (fun _ _ _ => rfl) fun _ _ _ => rfl,
    maskedTwin_of_aluReg (op := rshResult) (fun _ _ _ => rfl) fun _ _ _ => rfl,
    maskedTwin_of_divImm (op := modResult) (fun _ _ _ => rfl) fun _ _ _ => rfl,
    maskedTwin_of_divReg (op := modResult) (fun _ _ _ => rfl) fun _ _ _ => rfl,
    maskedTwin_of_aluImm (op := xorResult) (fun _ _ _ => rfl) fun _ _ _ => rfl,
    maskedTwin_of_aluReg (op := xorResult) (fun _ _ _ => rfl) fun _ _ _ => rfl,
    maskedTwin_of_aluImm (op := movResult) (fun _ _ _ => rfl) fun _ _ _ => rfl,
    maskedTwin_of_aluReg (op := movResult) (fun _ _ _ => rfl) fun _ _ _ => rfl,
    maskedTwin_of_aluImm (op := arshResult) (fun _ _ _ => rfl) fun _ _ _ => rfl,
    maskedTwin_of_aluReg (op := arshResult) (fun _ _ _ => rfl) fun _ _ _ => rfl,
    maskedTwin_neg⟩

end Sys2Proof.Machine
end

section
/-! SUPPORT. The jumps (spec/43_jump.md R190 to R216): the eleven conditions as relations of numbers, the two ends of a
jump with their frame, and each form of a conditional jump proved once for any condition. -/

namespace Sys2Proof.Machine

open Sys2Proof.Claims

namespace Jumps

/-! ### The conditions as relations of numbers (R192, R193) -/

/-- A condition on words tests this relation of the numbers they stand for. -/
def Tests (cond : Word → Word → Bool) (c : Nat → Nat → Prop) : Prop :=
  ∀ a b : Word, cond a b = true ↔ c a.toNat b.toNat

theorem tests_eq : Tests condEq (fun a b => a = b) := fun _ _ => beq_iff_eq.trans BitVec.toNat_inj.symm

theorem tests_ne : Tests condNe (fun a b => a ≠ b) := fun _ _ => bne_iff_ne.trans BitVec.toNat_ne_iff_ne.symm

theorem tests_gt : Tests condGt (fun a b => b < a) := fun _ _ => decide_eq_true_iff

theorem tests_ge : Tests condGe (fun a b => b ≤ a) := fun _ _ => decide_eq_true_iff

theorem tests_lt : Tests condLt (fun a b => a < b) := fun _ _ => decide_eq_true_iff

theorem tests_le : Tests condLe (fun a b => a ≤ b) := fun _ _ => decide_eq_true_iff

theorem tests_sgt : Tests condSgt (fun a b => signed64 b < signed64 a) := fun _ _ => by
  simp only [condSgt, decide_eq_true_iff, Alu32.signed64_toNat]

theorem tests_sge : Tests condSge (fun a b => signed64 b ≤ signed64 a) := fun _ _ => by
  simp only [condSge, decide_eq_true_iff, Alu32.signed64_toNat]

theorem tests_slt : Tests condSlt (fun a b => signed64 a < signed64 b) := fun _ _ => by
  simp only [condSlt, decide_eq_true_iff, Alu32.signed64_toNat]

theorem tests_sle : Tests condSle (fun a b => signed64 a ≤ signed64 b) := fun _ _ => by
  simp only [condSle, decide_eq_true_iff, Alu32.signed64_toNat]

/-- The bitwise and of the words is zero exactly when that of their numbers is. -/
theorem tests_set : Tests condSet (fun a b => a &&& b ≠ 0) := fun _ _ => by
  rw [condSet, bne_iff_ne, ← BitVec.toNat_ne_iff_ne, BitVec.toNat_and, BitVec.toNat_zero]

/-! ### The two ends of a jump (R191) -/

theorem onlyMoves_jump (s : State) (off : OffField) : OnlyMoves s (s.jump off) (s.pc + 1 + off.toInt) where
  regs q := by simp
  pc := by simp [signedOff]
  bytes R k := by simp
  rest := by constructor <;> simp

theorem onlyMoves_advance (s : State) : OnlyMoves s (s.advance 1) (s.pc + 1) where
  regs q := by simp
  pc := by simp
  bytes R k := by simp
  rest := by constructor <;> simp

section Ends

variable {cond : Word → Word → Bool} {c : Nat → Nat → Prop} {a b : Word}

theorem branch_taken (hcond : Tests cond c) (h : c a.toNat b.toNat) (off : OffField) (s : State) :
    branch (cond a b) off s = .next (s.jump off) :=
  if_pos ((hcond a b).2 h)

theorem branch_passed (hcond : Tests cond c) (h : ¬ c a.toNat b.toNat) (off : OffField) (s : State) :
    branch (cond a b) off s = .next (s.advance 1) :=
  if_neg fun htrue => h ((hcond a b).1 htrue)

end Ends

/-! ### The forms (R83, R115, R192) -/

theorem jumpImm_field (cond : Word → Word → Bool) (d : Reg) (imm : ImmField) (off : OffField) (s : State) :
    jumpImm cond d.field imm off s = branch (cond (s.reg d) (sextImm imm)) off s :=
  withReg_field d s _

theorem jumpReg_field (cond : Word → Word → Bool) (d r : Reg) (off : OffField) (s : State) :
    jumpReg cond d.field r.field off s = branch (cond (s.reg d) (s.reg r)) off s :=
  withRegs_field d r s _

section Rules

variable {code : Byte} {cond : Word → Word → Bool} {c : Nat → Nat → Prop}

theorem jumpImmRule_of_exec {mk : RegField → ImmField → OffField → Instr} (hcond : Tests cond c)
    (hdecode : ∀ w : Slot, decodeSlot { w with opcode := code } = some (mk w.dst w.imm w.off))
    (hexec : ∀ dst imm off s, exec (mk dst imm off) s = jumpImm cond dst imm off s) : JumpImmRule code mk c := by
  refine ⟨Alu32.decodesAs_of_decodeSlot hdecode, fun d imm off s h => ?taken, fun d imm off s h => ?passed,
    fun v imm off s hbad => ?invalid⟩
  case taken =>
    rw [← Alu32.toNat_sextImm] at h
    rw [hexec, jumpImm_field, branch_taken hcond h]
    exact ⟨_, rfl, onlyMoves_jump s off⟩
  case passed =>
    rw [← Alu32.toNat_sextImm] at h
    rw [hexec, jumpImm_field, branch_passed hcond h]
    exact ⟨_, rfl, onlyMoves_advance s⟩
  case invalid =>
    rw [hexec]
    exact withReg_invalid hbad s _

theorem jumpRegRule_of_exec {mk : RegField → RegField → OffField → Instr} (hcond : Tests cond c)
    (hdecode : ∀ w : Slot, decodeSlot { w with opcode := code } = some (mk w.dst w.src w.off))
    (hexec : ∀ dst src off s, exec (mk dst src off) s = jumpReg cond dst src off s) : JumpRegRule code mk c := by
  refine ⟨Alu32.decodesAs_of_decodeSlot hdecode, fun d r off s h => ?taken, fun d r off s h => ?passed,
    fun off => ?invalid⟩
  case taken =>
    rw [hexec, jumpReg_field, branch_taken hcond h]
    exact ⟨_, rfl, onlyMoves_jump s off⟩
  case passed =>
    rw [hexec, jumpReg_field, branch_passed hcond h]
    exact ⟨_, rfl, onlyMoves_advance s⟩
  case invalid =>
    simp only [hexec]
    exact Alu32.checksBoth_withRegs _

end Rules

end Jumps

open Jumps

/-- Settles O45: the taken end of a jump, with no condition before it. -/
theorem unconditionalJump : Obligations.UnconditionalJump :=
  ⟨Alu32.decodesAs_of_decodeSlot fun _ => rfl, fun off s => ⟨s.jump off, rfl, onlyMoves_jump s off⟩⟩

/-- Settles O46: the immediate form, with each condition testing its relation. -/
theorem conditionalImmediateJumps : Obligations.ConditionalImmediateJumps :=
  ⟨jumpImmRule_of_exec tests_eq (fun _ => rfl) fun _ _ _ _ => rfl,
    jumpImmRule_of_exec tests_gt (fun _ => rfl) fun _ _ _ _ => rfl,
    jumpImmRule_of_exec tests_ge (fun _ => rfl) fun _ _ _ _ => rfl,
    jumpImmRule_of_exec tests_set (fun _ => rfl) fun _ _ _ _ => rfl,
    jumpImmRule_of_exec tests_ne (fun _ => rfl) fun _ _ _ _ => rfl,
    jumpImmRule_of_exec tests_sgt (fun _ => rfl) fun _ _ _ _ => rfl,
    jumpImmRule_of_exec tests_sge (fun _ => rfl) fun _ _ _ _ => rfl,
    jumpImmRule_of_exec tests_lt (fun _ => rfl) fun _ _ _ _ => rfl,
    jumpImmRule_of_exec tests_le (fun _ => rfl) fun _ _ _ _ => rfl,
    jumpImmRule_of_exec tests_slt (fun _ => rfl) fun _ _ _ _ => rfl,
    jumpImmRule_of_exec tests_sle (fun _ => rfl) fun _ _ _ _ => rfl⟩

/-- Settles O47: the register form, with the same eleven conditions. -/
theorem conditionalRegisterJumps : Obligations.ConditionalRegisterJumps :=
  ⟨jumpRegRule_of_exec tests_eq (fun _ => rfl) fun _ _ _ _ => rfl,
    jumpRegRule_of_exec tests_gt (fun _ => rfl) fun _ _ _ _ => rfl,
    jumpRegRule_of_exec tests_ge (fun _ => rfl) fun _ _ _ _ => rfl,
    jumpRegRule_of_exec tests_set (fun _ => rfl) fun _ _ _ _ => rfl,
    jumpRegRule_of_exec tests_ne (fun _ => rfl) fun _ _ _ _ => rfl,
    jumpRegRule_of_exec tests_sgt (fun _ => rfl) fun _ _ _ _ => rfl,
    jumpRegRule_of_exec tests_sge (fun _ => rfl) fun _ _ _ _ => rfl,
    jumpRegRule_of_exec tests_lt (fun _ => rfl) fun _ _ _ _ => rfl,
    jumpRegRule_of_exec tests_le (fun _ => rfl) fun _ _ _ _ => rfl,
    jumpRegRule_of_exec tests_slt (fun _ => rfl) fun _ _ _ _ => rfl,
    jumpRegRule_of_exec tests_sle (fun _ => rfl) fun _ _ _ _ => rfl⟩

end Sys2Proof.Machine
end

section
/-! SUPPORT. `call` and `exit` (spec/44_call_exit.md R220 to R223): what the helper port answers on a hit and on a miss,
and the state each instruction leaves. -/

namespace Sys2Proof.Machine

namespace CallExit

/-! ### The helper port (R220 to R222) -/

theorem callHelper_of_found {key : ImmField} {s : State} {h : Helper} (hfound : findHelper s.helpers key = some h) :
    callHelper key s =
      .next ((s.setReg .r0 (helperResult h (s.reg .r1) (s.reg .r2) (s.reg .r3) (s.reg .r4) (s.reg .r5))).advance 1) := by
  rw [callHelper, hfound]

theorem callHelper_of_missing {key : ImmField} {s : State} (hmiss : findHelper s.helpers key = none) :
    callHelper key s = .next ((s.emit (.helperMiss key)).advance 1) := by
  rw [callHelper, hmiss]

/-! ### The two instructions (R221, R223) -/

theorem exec_call (key : ImmField) (s : State) : exec (.call key) s = callHelper key s := rfl

theorem exec_exit (s : State) : exec .exit s = .next s.finish := rfl

end CallExit

open CallExit

/-- Settles O48: a hit ends in a register write, a miss in the report alone. -/
theorem callInvokesTheHelper : Obligations.CallInvokesTheHelper := by
  refine ⟨Alu32.decodesAs_of_decodeSlot fun _ => rfl, fun key s h hfound => ?hit, fun key s hmiss => ?miss⟩
  case hit =>
    rw [exec_call, callHelper_of_found hfound]
    exact ⟨_, rfl, Alu32.writesReg_setReg s .r0 _⟩
  case miss =>
    rw [exec_call, callHelper_of_missing hmiss]
    rfl

/-- Settles O49: `exit` ends in `State.finish`, which writes the status alone. -/
theorem exitReturnsRegisterZero : Obligations.ExitReturnsRegisterZero :=
  ⟨Alu32.decodesAs_of_decodeSlot fun _ => rfl, exec_exit⟩

end Sys2Proof.Machine
end

section
/-! SUPPORT. The loads and stores (spec/45_load_store.md R230 to R259): the addresses as unbounded integers, the two ends
of a load and of a store with their frame, and each form proved once for any width. -/

namespace Sys2Proof.Machine

open Sys2Proof.Claims

namespace LoadStore

/-! ### Addresses (R61, R257, R258) -/

theorem zextImm_toNat (imm : ImmField) : (zextImm imm).toNat = imm.toNat :=
  BitVec.toNat_setWidth_of_le (by decide)

theorem absAddress_eq (memBase : Word) (imm : ImmField) : absAddress memBase imm = (memBase.toNat : Int) + imm.toNat := by
  rw [absAddress, zextImm_toNat]

theorem indAddress_eq (base : Word) (imm : ImmField) : indAddress base imm = (base.toNat : Int) + imm.toNat := by
  rw [indAddress, zextImm_toNat]

/-- In the Address Space alone an access translates by its bounds, whatever the Stack overlaps. -/
theorem translateAccess_reachAS_some {p : Params} {a : Int} {n k : Nat} (ha : a = (p.memBase.toNat : Int) + k)
    (hk : k + n ≤ p.memSize) : translateAccess p reachAS a n = some (.addressSpace, k) := by
  have hold : Region.addressSpace.holds p a n = true :=
    (Region.holds_iff p .addressSpace a n).2 (by simp only [Region.base, Region.size]; omega)
  rw [reachAS, translateAccess, if_pos hold, ha, Region.base, add_sub_cancel_left, Int.toNat_natCast]

/-! ### The two ends of a load (R253, R254) -/

section Ends

variable {s : State} {a : Int} {n : Nat}

theorem loadInto_of_some {reach : List Region} {R : Region} {k : Nat}
    (h : translateAccess s.params reach a n = some (R, k)) (d : Reg) :
    loadInto d reach a n s = .next ((s.setReg d (word (numberAt s R k n))).advance 1) := by
  rw [loadInto, memRead_some h, State.natOfBytes_bytesAt, word, numberAt]

theorem loadInto_of_none {reach : List Region} (h : translateAccess s.params reach a n = none) (d : Reg) :
    loadInto d reach a n s = .next (s.raise (.memoryFault a n)) := by
  simp only [loadInto, memRead_none h, raise]

/-- A load that translates has the frame of a register write. -/
theorem loadInto_writesReg {reach : List Region} {R : Region} {k : Nat}
    (h : translateAccess s.params reach a n = some (R, k)) (d : Reg) :
    ∃ t, loadInto d reach a n s = .next t ∧ WritesReg s t d (word (numberAt s R k n)) (s.pc + 1) :=
  ⟨_, loadInto_of_some h d, Alu32.writesReg_setReg s d _⟩

/-! ### The two ends of a store (R253, R254) -/

theorem storeAt_of_some {R : Region} {k : Nat} (h : translateAccess s.params reachBoth a n = some (R, k)) (v : Word) :
    storeAt a n v s = .next ((s.setBytes R k (toBytes n v.toNat)).advance 1) := by
  rw [storeAt, memWrite_some h]

theorem storeAt_of_none (h : translateAccess s.params reachBoth a n = none) (v : Word) :
    storeAt a n v s = .next (s.raise (.memoryFault a n)) := by
  simp only [storeAt, memWrite_none h, raise]

theorem storesBytes_setBytes (s : State) (R : Region) (k n v : Nat) :
    StoresBytes s ((s.setBytes R k (toBytes n v)).advance 1) R k n v where
  stored j hj := by
    rw [State.advance_byteAt, State.byteAt_setBytes_toBytes, if_pos ⟨rfl, by omega, by omega⟩, Nat.add_sub_cancel_left,
      byteOf]
  others Q j hout := by
    rw [State.advance_byteAt, State.byteAt_setBytes, toBytes_length, if_neg hout]
  regs q := by simp
  pc := by simp
  rest := by constructor <;> simp

/-- A store that translates has the frame of a store of its bytes. -/
theorem storeAt_storesBytes {R : Region} {k : Nat} (h : translateAccess s.params reachBoth a n = some (R, k)) (v : Word) :
    ∃ t, storeAt a n v s = .next t ∧ StoresBytes s t R k n v.toNat :=
  ⟨_, storeAt_of_some h v, storesBytes_setBytes s R k n v.toNat⟩

end Ends

/-- The number read where a run of bytes has been stored is the stored number, cut to the width. -/
theorem numberAt_of_storesBytes {s t : State} {R : Region} {k n v : Nat} (h : StoresBytes s t R k n v) :
    numberAt t R k n = v % 256 ^ n := by
  calc numberAt t R k n
      = ∑ j ∈ Finset.range n, ((toBytes n v).getD j 0#8).toNat * 256 ^ j := by
        refine Finset.sum_congr rfl fun j hj => ?_
        have hlt : j < n := Finset.mem_range.1 hj
        rw [h.stored j hlt, List.getD_eq_getElem _ _ (by rwa [toBytes_length]), toBytes_getElem]
    _ = natOfBytes (toBytes n v) := by rw [natOfBytes_eq_sum, toBytes_length]
    _ = v % 256 ^ n := natOfBytes_toBytes n v

/-! ### The forms (R83, R115, R230, R257 to R259) -/

theorem loadInd_field (n : Nat) (r : Reg) (imm : ImmField) (s : State) :
    loadInd n r.field imm s = loadInto .r0 reachAS (indAddress (s.reg r) imm) n s :=
  withReg_field r s _

theorem loadOff_field (n : Nat) (d r : Reg) (off : OffField) (s : State) :
    loadOff n d.field r.field off s = loadInto d reachBoth (((s.reg r).toNat : Int) + off.toInt) n s :=
  withRegs_field d r s _

theorem storeImm_field (n : Nat) (d : Reg) (off : OffField) (imm : ImmField) (s : State) :
    storeImm n d.field off imm s = storeAt (((s.reg d).toNat : Int) + off.toInt) n (sextImm imm) s :=
  withReg_field d s _

theorem storeReg_field (n : Nat) (d r : Reg) (off : OffField) (s : State) :
    storeReg n d.field off r.field s = storeAt (((s.reg d).toNat : Int) + off.toInt) n (s.reg r) s :=
  withRegs_field d r s _

section Rules

variable {code : Byte} {n : Nat}

theorem loadAbsRule_of_exec {mk : ImmField → Instr}
    (hdecode : ∀ w : Slot, decodeSlot { w with opcode := code } = some (mk w.imm))
    (hexec : ∀ imm s, exec (mk imm) s = loadAbs n imm s) : LoadAbsRule code mk n := by
  refine ⟨Alu32.decodesAs_of_decodeSlot hdecode, fun imm s hin => ?inside, fun imm s hout => ?fault⟩
  case inside =>
    rw [hexec, loadAbs]
    exact loadInto_writesReg (translateAccess_reachAS_some (absAddress_eq _ _) hin) .r0
  case fault =>
    rw [hexec, loadAbs, absAddress_eq]
    exact loadInto_of_none ((translateAccess_reachAS_none_iff ..).2 (by omega)) .r0

theorem loadIndRule_of_exec {mk : RegField → ImmField → Instr}
    (hdecode : ∀ w : Slot, decodeSlot { w with opcode := code } = some (mk w.src w.imm))
    (hexec : ∀ src imm s, exec (mk src imm) s = loadInd n src imm s) : LoadIndRule code mk n := by
  refine ⟨Alu32.decodesAs_of_decodeSlot hdecode, fun r imm s hlow hhigh => ?inside, fun r imm s hout => ?fault,
    fun v imm s hbad => ?invalid⟩
  case inside =>
    rw [hexec, loadInd_field, indAddress_eq]
    exact loadInto_writesReg (translateAccess_reachAS_some (by omega) (by omega)) .r0
  case fault =>
    rw [hexec, loadInd_field, indAddress_eq]
    exact loadInto_of_none ((translateAccess_reachAS_none_iff ..).2 (by omega)) .r0
  case invalid =>
    rw [hexec]
    exact withReg_invalid hbad s _

theorem loadOffRule_of_exec {mk : RegField → RegField → OffField → Instr}
    (hdecode : ∀ w : Slot, decodeSlot { w with opcode := code } = some (mk w.dst w.src w.off))
    (hexec : ∀ dst src off s, exec (mk dst src off) s = loadOff n dst src off s) : LoadOffRule code mk n := by
  refine ⟨Alu32.decodesAs_of_decodeSlot hdecode, fun d r off s R k ht => ?inside, fun d r off s ht => ?fault,
    fun off => ?invalid⟩
  case inside =>
    rw [hexec, loadOff_field]
    exact loadInto_writesReg ht d
  case fault =>
    rw [hexec, loadOff_field]
    exact loadInto_of_none ht d
  case invalid =>
    simp only [hexec]
    exact Alu32.checksBoth_withRegs _

theorem storeImmRule_of_exec {mk : RegField → OffField → ImmField → Instr}
    (hdecode : ∀ w : Slot, decodeSlot { w with opcode := code } = some (mk w.dst w.off w.imm))
    (hexec : ∀ dst off imm s, exec (mk dst off imm) s = storeImm n dst off imm s) : StoreImmRule code mk n := by
  refine ⟨Alu32.decodesAs_of_decodeSlot hdecode, fun d off imm s R k ht => ?inside, fun d off imm s ht => ?fault,
    fun v off imm s hbad => ?invalid⟩
  case inside =>
    rw [hexec, storeImm_field, ← Alu32.toNat_sextImm]
    exact storeAt_storesBytes ht _
  case fault =>
    rw [hexec, storeImm_field]
    exact storeAt_of_none ht _
  case invalid =>
    rw [hexec]
    exact withReg_invalid hbad s _

theorem storeRegRule_of_exec {mk : RegField → OffField → RegField → Instr}
    (hdecode : ∀ w : Slot, decodeSlot { w with opcode := code } = some (mk w.dst w.off w.src))
    (hexec : ∀ dst off src s, exec (mk dst off src) s = storeReg n dst off src s) : StoreRegRule code mk n := by
  refine ⟨Alu32.decodesAs_of_decodeSlot hdecode, fun d r off s R k ht => ?inside, fun d r off s ht => ?fault,
    fun off => ?invalid⟩
  case inside =>
    rw [hexec, storeReg_field]
    exact storeAt_storesBytes ht _
  case fault =>
    rw [hexec, storeReg_field]
    exact storeAt_of_none ht _
  case invalid =>
    simp only [hexec]
    exact Alu32.checksBoth_withRegs _

/-- A store keeps the parameters and the base register, so the load's address translates as the store's did (R255). -/
theorem roundTrips_of_rules {storeCode loadCode : Byte} {st : RegField → OffField → RegField → Instr}
    {ld : RegField → RegField → OffField → Instr} (hst : StoreRegRule storeCode st n)
    (hld : LoadOffRule loadCode ld n) : RoundTrips st ld n := by
  intro b r d off s R k ht
  obtain ⟨_, hstore, _, _⟩ := hst
  obtain ⟨_, hload, _, _⟩ := hld
  obtain ⟨t, hexec, hstored⟩ := hstore b r off s R k ht
  have htranslate : translateAccess t.params reachBoth (((t.reg b).toNat : Int) + off.toInt) n = some (R, k) := by
    rw [hstored.rest.params, hstored.regs b, ht]
  obtain ⟨u, hexec', hwrites⟩ := hload d b off t R k htranslate
  exact ⟨t, u, hexec, hexec', by rw [hwrites.dest, numberAt_of_storesBytes hstored]⟩

end Rules

end LoadStore

open LoadStore

/-- Settles O51: the absolute form at each width. -/
theorem absoluteLoads : Obligations.AbsoluteLoads :=
  ⟨loadAbsRule_of_exec (fun _ => rfl) fun _ _ => rfl,
    loadAbsRule_of_exec (fun _ => rfl) fun _ _ => rfl,
    loadAbsRule_of_exec (fun _ => rfl) fun _ _ => rfl,
    loadAbsRule_of_exec (fun _ => rfl) fun _ _ => rfl⟩

/-- Settles O52: the register-plus-immediate form at each width. -/
theorem indirectLoads : Obligations.IndirectLoads :=
  ⟨loadIndRule_of_exec (fun _ => rfl) fun _ _ _ => rfl,
    loadIndRule_of_exec (fun _ => rfl) fun _ _ _ => rfl,
    loadIndRule_of_exec (fun _ => rfl) fun _ _ _ => rfl,
    loadIndRule_of_exec (fun _ => rfl) fun _ _ _ => rfl⟩

/-- Settles O53: the register-plus-offset form at each width. -/
theorem offsetLoads : Obligations.OffsetLoads :=
  ⟨loadOffRule_of_exec (fun _ => rfl) fun _ _ _ _ => rfl,
    loadOffRule_of_exec (fun _ => rfl) fun _ _ _ _ => rfl,
    loadOffRule_of_exec (fun _ => rfl) fun _ _ _ _ => rfl,
    loadOffRule_of_exec (fun _ => rfl) fun _ _ _ _ => rfl⟩

/-- Settles O54: the immediate store at each width. -/
theorem immediateStores : Obligations.ImmediateStores :=
  ⟨storeImmRule_of_exec (fun _ => rfl) fun _ _ _ _ => rfl,
    storeImmRule_of_exec (fun _ => rfl) fun _ _ _ _ => rfl,
    storeImmRule_of_exec (fun _ => rfl) fun _ _ _ _ => rfl,
    storeImmRule_of_exec (fun _ => rfl) fun _ _ _ _ => rfl⟩

/-- Settles O55: the register store at each width. -/
theorem registerStores : Obligations.RegisterStores :=
  ⟨storeRegRule_of_exec (fun _ => rfl) fun _ _ _ _ => rfl,
    storeRegRule_of_exec (fun _ => rfl) fun _ _ _ _ => rfl,
    storeRegRule_of_exec (fun _ => rfl) fun _ _ _ _ => rfl,
    storeRegRule_of_exec (fun _ => rfl) fun _ _ _ _ => rfl⟩

/-- Settles O33: the rules of the two forms (O55, O53) meet in the state between the store and the load. -/
theorem storeThenLoadRoundTrips : Obligations.StoreThenLoadRoundTrips := by
  obtain ⟨stxw, stxh, stxb, stxdw⟩ := registerStores
  obtain ⟨ldxw, ldxh, ldxb, ldxdw⟩ := offsetLoads
  exact ⟨roundTrips_of_rules stxb ldxb, roundTrips_of_rules stxh ldxh, roundTrips_of_rules stxw ldxw,
    roundTrips_of_rules stxdw ldxdw⟩

end Sys2Proof.Machine
end

section
/-! SUPPORT. The byte swaps (spec/46_byteswap.md R260 to R263): reversing a list of bytes is the `swapped` of the
statements, reversing it twice gives it back, and form `END` is proved once for any result function. -/

namespace Sys2Proof.Machine

open Sys2Proof.Claims

namespace ByteSwap

/-! ### Bytes in reverse order (R16, R263) -/

theorem natOfBytes_reverse_toBytes (n v : Nat) : natOfBytes (toBytes n v).reverse = swapped n v := by
  rw [natOfBytes_eq_sum, List.length_reverse, toBytes_length, swapped, ← Finset.sum_range_reflect]
  refine Finset.sum_congr rfl fun i hi => ?_
  have hlt : i < n := Finset.mem_range.1 hi
  have hbyte : ((toBytes n v).reverse.getD (n - 1 - i) 0#8).toNat = byteOf v i := by
    rw [List.getD_eq_getElem _ _ (by simp; omega), List.getElem_reverse, toBytes_getElem, byteOf, toBytes_length,
      show n - 1 - (n - 1 - i) = i by omega]
  rw [hbyte]

/-- Cutting the reversed number into bytes and reversing again restores the bytes. -/
theorem natOfBytes_reverse_toBytes_twice (n v : Nat) :
    natOfBytes (toBytes n (natOfBytes (toBytes n v).reverse)).reverse = v % 256 ^ n := by
  have hcut : toBytes n (natOfBytes (toBytes n v).reverse) = (toBytes n v).reverse := by
    simpa using toBytes_natOfBytes (toBytes n v).reverse
  rw [hcut, List.reverse_reverse, natOfBytes_toBytes]

/-! ### The two result functions (R263) -/

theorem beResult_eq_word_swapped (bits : Nat) (v : Word) : beResult bits v = word (swapped (bits / 8) v.toNat) := by
  rw [beResult, natOfBytes_reverse_toBytes, word]

theorem leResult_toNat (bits : Nat) (v : Word) : (leResult bits v).toNat = v.toNat % 2 ^ bits := by
  rw [leResult, BitVec.toNat_ofNat, Nat.mod_eq_of_lt ((Nat.mod_le _ _).trans_lt v.isLt)]

theorem leResult_leResult (bits : Nat) (v : Word) : leResult bits (leResult bits v) = leResult bits v := by
  rw [leResult, leResult_toNat, Nat.mod_mod, leResult]

/-- At most eight reversed bytes fit in a register, so nothing of them is lost. -/
theorem beResult_toNat {bits : Nat} (h : bits / 8 ≤ 8) (v : Word) :
    (beResult bits v).toNat = natOfBytes (toBytes (bits / 8) v.toNat).reverse := by
  have hbytes : natOfBytes (toBytes (bits / 8) v.toNat).reverse < 256 ^ (bits / 8) := by
    simpa using natOfBytes_lt (toBytes (bits / 8) v.toNat).reverse
  have hword : 256 ^ (bits / 8) ≤ 2 ^ 64 := Nat.pow_le_pow_right (by decide : 0 < 256) h
  rw [beResult, BitVec.toNat_ofNat, Nat.mod_eq_of_lt (hbytes.trans_le hword)]

theorem beResult_beResult_toNat {bits : Nat} (h : bits / 8 ≤ 8) (v : Word) :
    (beResult bits (beResult bits v)).toNat = v.toNat % 256 ^ (bits / 8) := by
  rw [beResult_toNat h, beResult_toNat h, natOfBytes_reverse_toBytes_twice]

/-! ### The widths (R260) -/

theorem signedImm_of_width : ∀ n ∈ [16, 32, 64], signedImm (BitVec.ofNat 32 n) = (n : Int) := by decide

theorem pow256_of_width : ∀ n ∈ [16, 32, 64], n / 8 ≤ 8 ∧ 256 ^ (n / 8) = 2 ^ n := by decide

/-! ### Form `END` (R260) -/

theorem byteSwap_of_width (op : Nat → Word → Word) (d : Reg) (s : State) {n : Nat} (hn : n ∈ [16, 32, 64]) :
    byteSwap op d.field (BitVec.ofNat 32 n) s = .next ((s.setReg d (op n (s.reg d))).advance 1) := by
  have hlegal : (n : Int) = 16 ∨ (n : Int) = 32 ∨ (n : Int) = 64 := by
    simp only [List.mem_cons, List.not_mem_nil, or_false] at hn
    omega
  rw [byteSwap, withReg_field, signedImm_of_width n hn, if_pos hlegal, Int.toNat_natCast]

theorem byteSwap_of_other_width (op : Nat → Word → Word) (d : Reg) (s : State) {imm : ImmField}
    (h16 : imm.toInt ≠ 16) (h32 : imm.toInt ≠ 32) (h64 : imm.toInt ≠ 64) :
    byteSwap op d.field imm s = .next (s.raise (.invalidSwapWidth imm.toInt)) := by
  rw [byteSwap, withReg_field, signedImm, if_neg (by simp only [h16, h32, h64, or_self, not_false_eq_true]), raise]

/-- The destination after a swap at one of the three widths. -/
theorem reg_of_byteSwap {op : Nat → Word → Word} {d : Reg} {n : Nat} (hn : n ∈ [16, 32, 64]) {s t : State}
    (h : byteSwap op d.field (BitVec.ofNat 32 n) s = .next t) : t.reg d = op n (s.reg d) := by
  rw [byteSwap_of_width op d s hn] at h
  obtain rfl := Host.Outcome.next.inj h
  exact (Alu32.writesReg_setReg s d _).dest

theorem swapRule_of_exec {code : Byte} {mk : RegField → ImmField → Instr} {op : Nat → Word → Word}
    {f : Nat → Nat → Nat} (hop : ∀ n v, op n v = word (f n v.toNat))
    (hdecode : ∀ w : Slot, decodeSlot { w with opcode := code } = some (mk w.dst w.imm))
    (hexec : ∀ dst imm s, exec (mk dst imm) s = byteSwap op dst imm s) : SwapRule code mk f := by
  refine ⟨Alu32.decodesAs_of_decodeSlot hdecode, fun d s n hn => ?width, fun d imm s h16 h32 h64 => ?fault,
    fun v imm s hbad => ?invalid⟩
  case width =>
    rw [hexec, byteSwap_of_width op d s hn, ← hop]
    exact ⟨_, rfl, Alu32.writesReg_setReg s d _⟩
  case fault =>
    rw [hexec]
    exact byteSwap_of_other_width op d s h16 h32 h64
  case invalid =>
    rw [hexec]
    exact withReg_invalid hbad s _

/-! ### The two instructions (R261, R262) -/

theorem exec_le (dst : RegField) (imm : ImmField) (s : State) :
    exec (.le dst imm) s = byteSwap leResult dst imm s := rfl

theorem exec_be (dst : RegField) (imm : ImmField) (s : State) :
    exec (.be dst imm) s = byteSwap beResult dst imm s := rfl

end ByteSwap

open ByteSwap

/-- Settles O43: both instructions have form `END`, with their result functions. -/
theorem byteSwaps : Obligations.ByteSwaps :=
  ⟨swapRule_of_exec (fun _ _ => rfl) (fun _ => rfl) exec_le,
    swapRule_of_exec beResult_eq_word_swapped (fun _ => rfl) exec_be⟩

/-- Settles O44: two swaps compose the result function with itself. -/
theorem byteSwapTwice : Obligations.ByteSwapTwice := by
  intro d s t u n hn
  obtain ⟨hbytes, hpow⟩ := pow256_of_width n hn
  refine ⟨fun hfirst hsecond => ?le, fun hfirst hsecond => ?be⟩
  case le =>
    have ht := reg_of_byteSwap hn (exec_le .. ▸ hfirst)
    have hu := reg_of_byteSwap hn (exec_le .. ▸ hsecond)
    rw [hu, ht, leResult_leResult]
    exact ⟨rfl, leResult_toNat n _⟩
  case be =>
    have ht := reg_of_byteSwap hn (exec_be .. ▸ hfirst)
    have hu := reg_of_byteSwap hn (exec_be .. ▸ hsecond)
    rw [hu, ht, beResult_beResult_toNat hbytes, hpow]

end Sys2Proof.Machine
end

section
/-! SUPPORT. What the reset procedure leaves (spec/70_reset_and_hazards.md R300, R302): the registers, and the bytes of the
two regions, read back from the cells of the host's initial bytes. -/

namespace Sys2Proof.Machine

/-! ### The registers after reset (R36) -/

theorem RegFile.reset_get_of_ne (p : Params) {r : Reg} (h1 : r ≠ .r1) (h10 : r ≠ .r10) : (RegFile.reset p).get r = 0 := by
  cases r with
  | r1 => exact absurd rfl h1
  | r10 => exact absurd rfl h10
  | r0 | r2 | r3 | r4 | r5 | r6 | r7 | r8 | r9 => rfl

/-- The end of the Stack is itself an address (R8), so register 10 does not wrap. -/
theorem RegFile.reset_r10_toNat {p : Params} (hp : p.legal) :
    (RegFile.reset p).r10.toNat = p.stackBase.toNat + p.stackSize := by
  obtain ⟨_, hend, _⟩ := hp
  exact (BitVec.toNat_ofNat ..).trans (Nat.mod_eq_of_lt (by omega))

/-! ### The bytes after reset (R300, R302) -/

theorem Memory.lookup_eq_none {m : Memory} {k : Nat} (h : ∀ c ∈ m, c.1 ≠ k) : Memory.lookup m k = none := by
  induction m with
  | nil => rfl
  | cons c m ih =>
    rw [Memory.lookup, if_neg (h c List.mem_cons_self)]
    exact ih fun d hd => h d (List.mem_cons_of_mem c hd)

/-- The cells of initial bytes laid from offset `k + 1` on list nothing at offset `k`. -/
theorem lookup_cellsOf_succ (size k : Nat) (bs : List Byte) : Memory.lookup (cellsOf size (k + 1) bs) k = none :=
  Memory.lookup_eq_none fun _ hc => Nat.ne_of_gt (mem_cellsOf hc).1

/-- Inside the region, byte `j` of the initial bytes is read back at offset `k + j`: listed, or zero and unlisted. -/
theorem lookup_cellsOf_getD {size k j : Nat} (bs : List Byte) (h : k + j < size) :
    (Memory.lookup (cellsOf size k bs) (k + j)).getD 0#8 = bs.getD j 0#8 := by
  induction bs generalizing k j with
  | nil => rfl
  | cons b bs ih =>
    rw [cellsOf]
    cases j with
    | zero =>
      split
      case isTrue => simp [Memory.lookup]
      case isFalse hzero =>
        have hb : b = 0#8 := not_not.1 fun hb => hzero ⟨h, hb⟩
        rw [Nat.add_zero k, lookup_cellsOf_succ, hb]
        rfl
    | succ j =>
      have htail : (Memory.lookup (cellsOf size (k + 1) bs) (k + (j + 1))).getD 0#8 = bs.getD j 0#8 := by
        rw [Nat.add_comm j 1, ← Nat.add_assoc]
        exact ih (by omega)
      split
      case isTrue => rw [Memory.lookup, if_neg (by simp), htail, List.getD_cons_succ]
      case isFalse => rw [htail, List.getD_cons_succ]

/-- An unlisted byte of the Address Space reads as zero (log entry 5). -/
theorem State.byteAt_addressSpace (s : State) (k : Nat) :
    s.byteAt .addressSpace k = (Memory.lookup s.addressSpace k).getD 0#8 := by
  rw [State.byteAt, State.cells]
  cases Memory.lookup s.addressSpace k with
  | none => rfl
  | some b => rfl

theorem start_byteAt_addressSpace {p : Params} {k : Nat} (hk : k < p.memSize) (program : List Byte) (helpers : Registry)
    (memInit : List Byte) : (State.start p program helpers memInit).byteAt .addressSpace k = memInit.getD k 0#8 := by
  have hread := lookup_cellsOf_getD (k := 0) memInit (by rwa [Nat.zero_add])
  rw [Nat.zero_add] at hread
  exact (State.byteAt_addressSpace ..).trans hread

/-- Settles O9. Legality gives register 10, and the cells of the initial bytes give the Address Space; the rest is what
the reset procedure writes down. -/
theorem resetProcedureValues : Obligations.ResetProcedureValues := by
  intro p program helpers memInit hp _ s
  have hregs : ∀ r : Reg, r ≠ .r1 → r ≠ .r10 → s.reg r = 0 := fun _ h1 h10 => RegFile.reset_get_of_ne p h1 h10
  have hstackEnd : (s.reg .r10).toNat = p.stackBase.toNat + p.stackSize := RegFile.reset_r10_toNat hp
  have hmemory : ∀ k, k < p.memSize → s.byteAt .addressSpace k = memInit.getD k 0 := fun _ hk =>
    start_byteAt_addressSpace hk program helpers memInit
  exact ⟨hregs, rfl, hstackEnd, rfl, hmemory, fun _ => rfl, rfl, rfl, rfl⟩

/-! ### The end of a run, and the causes (spec/60_exceptions.md R270, R271, R277) -/

/-- Settles O20: a step of a terminal core is the identity (log entry 8), so by `run_of_terminal` any run of it is. -/
theorem terminalStatusIsFrozen : Obligations.TerminalStatusIsFrozen := fun _ n hs => run_of_terminal hs n

/-- Settles O56, row by row of the two tables. -/
theorem causesHaveTheirKindsAndCodes : Obligations.CausesHaveTheirKindsAndCodes :=
  ⟨⟨rfl, rfl⟩, fun _ => ⟨rfl, rfl⟩, fun _ => ⟨rfl, rfl⟩, ⟨rfl, rfl⟩, fun _ _ => ⟨rfl, rfl⟩, fun _ => ⟨rfl, rfl⟩, ⟨rfl, rfl⟩,
    ⟨rfl, rfl⟩⟩

end Sys2Proof.Machine
end

section
/-! SUPPORT. The encoding (spec/30_encoding.md R80 to R95): one equation for the decoder on the bytes of a slot, one
inversion for what it answers, and the opcode bytes of the four tables as the complement of the list of R92. -/

namespace Sys2Proof

open Sys2Proof.Claims

/-! ### The decoder on the bytes of a slot (R82, R94) -/

/-- The tables leave the opcode of `lddw` out. -/
theorem ne_lddwOpcode_of_decodeSlot {f : Slot} {i : Instr} (h : decodeSlot f = some i) : f.opcode ≠ lddwOpcode := by
  obtain ⟨op, dst, src, off, imm⟩ := f
  rintro rfl
  exact nomatch h

/-- A slot that the tables decode is one instruction, with the bytes behind it left over. -/
theorem decode_slot {f : Slot} {i : Instr} (h : decodeSlot f = some i) (rest : List Byte) :
    decode (f.bytes ++ rest) = .ok (i, rest) := by
  simp [decode, takeSlot_bytes, ne_lddwOpcode_of_decodeSlot h, h]

/-- A slot with the opcode of `lddw` takes the `imm` field of the next slot and nothing else of it. -/
theorem decode_lddw {f : Slot} (hop : f.opcode = lddwOpcode) (g : Slot) (rest : List Byte) :
    decode (f.bytes ++ g.bytes ++ rest) = .ok (.lddw f.dst f.imm g.imm, rest) := by
  simp [decode, takeSlot_bytes, hop]

theorem decode_lddw_noSecondSlot {f : Slot} (hop : f.opcode = lddwOpcode) {rest : List Byte} (h : rest.length < 8) :
    decode (f.bytes ++ rest) = .error .noSecondSlot := by
  simp [decode, takeSlot_bytes, hop, takeSlot_short h]

/-- Settles O1. But for `lddw` an encoding is the bytes of one slot, which the tables decode to the instruction whatever
its operands are; `lddw` is two slots. -/
theorem decodeUndoesEncode : Obligations.DecodeUndoesEncode := by
  intro i rest
  cases i with
  | lddw dst imm imm2 => exact decode_lddw rfl _ rest
  | add64Imm | add64Reg | sub64Imm | sub64Reg | mul64Imm | mul64Reg | div64Imm | div64Reg | or64Imm | or64Reg | and64Imm
  | and64Reg | lsh64Imm | lsh64Reg | rsh64Imm | rsh64Reg | neg64 | mod64Imm | mod64Reg | xor64Imm | xor64Reg | mov64Imm
  | mov64Reg | arsh64Imm | arsh64Reg
  | add32Imm | add32Reg | sub32Imm | sub32Reg | mul32Imm | mul32Reg | div32Imm | div32Reg | or32Imm | or32Reg | and32Imm
  | and32Reg | lsh32Imm | lsh32Reg | rsh32Imm | rsh32Reg | neg32 | mod32Imm | mod32Reg | xor32Imm | xor32Reg | mov32Imm
  | mov32Reg | arsh32Imm | arsh32Reg
  | le | be
  | ja | jeqImm | jeqReg | jgtImm | jgtReg | jgeImm | jgeReg | jsetImm | jsetReg | jneImm | jneReg | jsgtImm | jsgtReg
  | jsgeImm | jsgeReg | jltImm | jltReg | jleImm | jleReg | jsltImm | jsltReg | jsleImm | jsleReg
  | call | exit
  | ldabsw | ldabsh | ldabsb | ldabsdw | ldindw | ldindh | ldindb | ldinddw | ldxw | ldxh | ldxb | ldxdw
  | stw | sth | stb | stdw | stxw | stxh | stxb | stxdw => exact decode_slot rfl rest

/-! ### What the decoder answers (R80, R94) -/

/-- An instruction comes from one slot by the tables, or from two slots with the opcode of `lddw` in the first. -/
theorem decode_eq_ok {bytes rest : List Byte} {i : Instr} (h : decode bytes = .ok (i, rest)) :
    (∃ f, takeSlot bytes = some (f, rest) ∧ f.opcode ≠ lddwOpcode ∧ decodeSlot f = some i) ∨
      (∃ f g mid, takeSlot bytes = some (f, mid) ∧ f.opcode = lddwOpcode ∧ takeSlot mid = some (g, rest) ∧
        i = .lddw f.dst f.imm g.imm) := by
  unfold decode at h
  split at h
  · cases h
  · rename_i f mid hf
    split at h
    · rename_i hop
      split at h
      · cases h
      · rename_i g after hg
        cases h
        exact .inr ⟨f, g, mid, hf, hop, hg, rfl⟩
    · rename_i hop
      split at h
      · cases h
      · rename_i j hj
        cases h
        exact .inl ⟨f, hf, hop, hj⟩

theorem slots_of_decodeAlu64 {f : Slot} {i : Instr} (h : decodeAlu64 f = some i) : i.slots = 1 := by
  unfold decodeAlu64 at h
  split at h <;> cases h <;> rfl

theorem slots_of_decodeAlu32 {f : Slot} {i : Instr} (h : decodeAlu32 f = some i) : i.slots = 1 := by
  unfold decodeAlu32 at h
  split at h <;> cases h <;> rfl

theorem slots_of_decodeJump {f : Slot} {i : Instr} (h : decodeJump f = some i) : i.slots = 1 := by
  unfold decodeJump at h
  split at h <;> cases h <;> rfl

theorem slots_of_decodeLoadStore {f : Slot} {i : Instr} (h : decodeLoadStore f = some i) : i.slots = 1 := by
  unfold decodeLoadStore at h
  split at h <;> cases h <;> rfl

/-- What a table decodes is one slot long. -/
theorem slots_of_decodeSlot {f : Slot} {i : Instr} (h : decodeSlot f = some i) : i.slots = 1 := by
  change (decodeAlu64 f <|> decodeAlu32 f <|> decodeJump f <|> decodeLoadStore f) = some i at h
  simp only [Option.orElse_eq_some] at h
  rcases h with h | ⟨_, h | ⟨_, h | ⟨_, h⟩⟩⟩
  · exact slots_of_decodeAlu64 h
  · exact slots_of_decodeAlu32 h
  · exact slots_of_decodeJump h
  · exact slots_of_decodeLoadStore h

/-- Settles O2: the slots that `takeSlot` took are the head of the bytes. -/
theorem decodeConsumesWholeSlots : Obligations.DecodeConsumesWholeSlots := by
  intro bytes i rest h
  rcases decode_eq_ok h with ⟨f, hf, hop, hi⟩ | ⟨f, g, mid, hf, hop, hg, rfl⟩
  case inl =>
    obtain ⟨head, rfl, hlen, hfirst⟩ := takeSlot_some hf
    have hhead : (head ++ rest).head? = some f.opcode := by rw [List.head?_append, hfirst, Option.some_or]
    rw [slots_of_decodeSlot hi, List.take_left' hlen, List.length_append, hlen, hhead]
    exact ⟨rfl, rfl, fun h2 => absurd h2 (by decide), fun h18 => absurd (Option.some.inj h18) hop⟩
  case inr =>
    obtain ⟨head, rfl, hlen, hfirst⟩ := takeSlot_some hf
    obtain ⟨second, rfl, hlen', _⟩ := takeSlot_some hg
    have hhead : (head ++ (second ++ rest)).head? = some f.opcode := by rw [List.head?_append, hfirst, Option.some_or]
    have htaken : (head ++ second).length = 16 := by rw [List.length_append, hlen, hlen']
    rw [hhead, ← List.append_assoc, List.length_append, htaken]
    exact ⟨by rw [show 8 * (Instr.lddw f.dst f.imm g.imm).slots = 16 from rfl, List.take_left' htaken], rfl,
      fun _ => congrArg some hop, fun _ => rfl⟩

/-! ### The fields as bit slices (R81, R82) -/

/-- A concatenation of bits as a number: the high part above the low one. -/
theorem toNat_append_eq_add {m n : Nat} (x : BitVec m) (y : BitVec n) :
    (x ++ y).toNat = x.toNat * 2 ^ n + y.toNat := by
  rw [BitVec.toNat_append, ← Nat.shiftLeft_add_eq_or_of_lt y.isLt, Nat.shiftLeft_eq]

/-- The five fields of a slot, cut out of the sum of its four parts: opcode, register byte, `off` and `imm`. -/
theorem bitSlices_of_sum {W op regs off imm : Nat} (hop : op < 2 ^ 8) (hregs : regs < 2 ^ 8) (hoff : off < 2 ^ 16)
    (himm : imm < 2 ^ 32) (hW : W = op + regs * 2 ^ 8 + off * 2 ^ 16 + imm * 2 ^ 32) :
    op = W % 2 ^ 8 ∧ regs % 2 ^ 4 = W / 2 ^ 8 % 2 ^ 4 ∧ regs / 2 ^ 4 % 2 ^ 4 = W / 2 ^ 12 % 2 ^ 4 ∧
      off = W / 2 ^ 16 % 2 ^ 16 ∧ imm = W / 2 ^ 32 % 2 ^ 32 := by
  subst hW
  refine ⟨?_, ?_, ?_, ?_, ?_⟩
  all_goals omega

/-- Settles O3: the word is the sum of the four parts of the slot, of which `off` and `imm` are sums of bytes. -/
theorem slotFieldsAreBitSlices : Obligations.SlotFieldsAreBitSlices := by
  intro b W hW f
  have hdst : f.dst.toNat = (b 1).toNat % 2 ^ 4 := BitVec.extractLsb'_toNat ..
  have hsrc : f.src.toNat = (b 1).toNat / 2 ^ 4 % 2 ^ 4 :=
    (BitVec.extractLsb'_toNat ..).trans (by rw [Nat.shiftRight_eq_div_pow])
  have hoff : f.off.toNat = (b 3).toNat * 2 ^ 8 + (b 2).toNat := toNat_append_eq_add ..
  have himm : f.imm.toNat = (((b 7).toNat * 2 ^ 8 + (b 6).toNat) * 2 ^ 8 + (b 5).toNat) * 2 ^ 8 + (b 4).toNat := by
    change (b 7 ++ b 6 ++ b 5 ++ b 4).toNat = _
    simp only [toNat_append_eq_add]
  have hbytes : W = (b 0).toNat * 2 ^ 0 + (b 1).toNat * 2 ^ 8 + (b 2).toNat * 2 ^ 16 + (b 3).toNat * 2 ^ 24 +
      (b 4).toNat * 2 ^ 32 + (b 5).toNat * 2 ^ 40 + (b 6).toNat * 2 ^ 48 + (b 7).toNat * 2 ^ 56 :=
    hW.trans (Fin.sum_univ_eight _)
  have hparts : W = f.opcode.toNat + (b 1).toNat * 2 ^ 8 + f.off.toNat * 2 ^ 16 + f.imm.toNat * 2 ^ 32 := by
    rw [hbytes, hoff, himm, show f.opcode = b 0 from rfl]
    ring
  rw [hdst, hsrc]
  exact bitSlices_of_sum f.opcode.isLt (b 1).isLt f.off.isLt f.imm.isLt hparts

/-! ### The opcode bytes (R88 to R92) -/

/-- The list of R92 is the bytes that are no opcode of a row. -/
theorem unknownOpcodes_eq_filter : unknownOpcodes = (List.range 256).filter fun n => !rowOpcodes.testBit n := by decide

theorem testBit_of_not_unknown {op : Byte} (h : op.toNat ∉ unknownOpcodes) : rowOpcodes.testBit op.toNat = true := by
  have hlt : op.toNat < 256 := op.isLt
  simpa [unknownOpcodes_eq_filter, hlt] using h

/-- Every opcode of a row but that of `lddw` selects an instruction; the byte is cut in two halves to keep the check
short. -/
theorem decodeSlot_blank_of_testBit : ∀ high < 16, ∀ low < 16, rowOpcodes.testBit (16 * high + low) = true →
    16 * high + low ≠ 0x18 → (decodeSlot (Slot.blank (BitVec.ofNat 8 (16 * high + low)))).isSome = true := by decide

theorem isSome_decodeAlu64_congr {f g : Slot} (h : f.opcode = g.opcode) :
    (decodeAlu64 f).isSome = (decodeAlu64 g).isSome := by
  unfold decodeAlu64
  rw [h]
  split <;> rfl

theorem isSome_decodeAlu32_congr {f g : Slot} (h : f.opcode = g.opcode) :
    (decodeAlu32 f).isSome = (decodeAlu32 g).isSome := by
  unfold decodeAlu32
  rw [h]
  split <;> rfl

theorem isSome_decodeJump_congr {f g : Slot} (h : f.opcode = g.opcode) :
    (decodeJump f).isSome = (decodeJump g).isSome := by
  unfold decodeJump
  rw [h]
  split <;> rfl

theorem isSome_decodeLoadStore_congr {f g : Slot} (h : f.opcode = g.opcode) :
    (decodeLoadStore f).isSome = (decodeLoadStore g).isSome := by
  unfold decodeLoadStore
  rw [h]
  split <;> rfl

/-- The opcode byte alone says whether a slot is an instruction (R83). -/
theorem isSome_decodeSlot_congr {f g : Slot} (h : f.opcode = g.opcode) :
    (decodeSlot f).isSome = (decodeSlot g).isSome := by
  simp only [decodeSlot, Option.orElse_eq_or, Option.isSome_or, isSome_decodeAlu64_congr h, isSome_decodeAlu32_congr h,
    isSome_decodeJump_congr h, isSome_decodeLoadStore_congr h]

theorem decodeSlot_of_not_unknown {f : Slot} (h : f.opcode.toNat ∉ unknownOpcodes) (hop : f.opcode ≠ lddwOpcode) :
    ∃ i, decodeSlot f = some i := by
  have hlt : f.opcode.toNat < 256 := f.opcode.isLt
  have hsplit : 16 * (f.opcode.toNat / 16) + f.opcode.toNat % 16 = f.opcode.toNat := Nat.div_add_mod ..
  have hsome := decodeSlot_blank_of_testBit (f.opcode.toNat / 16) (by omega) (f.opcode.toNat % 16) (by omega)
  rw [hsplit, BitVec.ofNat_toNat, BitVec.setWidth_eq] at hsome
  have hblank : (decodeSlot (Slot.blank f.opcode)).isSome = true :=
    hsome (testBit_of_not_unknown h) fun h18 => hop (BitVec.eq_of_toNat_eq h18)
  have hsame : f.opcode = (Slot.blank f.opcode).opcode := rfl
  exact Option.isSome_iff_exists.1 ((isSome_decodeSlot_congr hsame).trans hblank)

/-- Settles O4: the list of R92 is the complement of the tables, and the opcode byte alone selects. -/
theorem unknownOpcodesAreThe158 : Obligations.UnknownOpcodesAreThe158 := by
  refine ⟨rfl, ?nodup, fun op w rest hop => ?unknown, fun op w rest hop hlddw => ?known, fun w v rest => ?lddw⟩
  case nodup =>
    rw [unknownOpcodes_eq_filter]
    exact List.nodup_range.filter _
  case unknown => exact decode_of_unknown hop (Nat.le_add_left 7 rest.length)
  case known =>
    obtain ⟨i, hi⟩ := decodeSlot_of_not_unknown (f := { w with opcode := op }) hop hlddw
    exact ⟨i, decode_slot hi rest⟩
  case lddw => exact ⟨_, decode_lddw rfl v rest⟩

/-- Settles O6, word by word. -/
theorem sampleWordsDecode : Obligations.SampleWordsDecode :=
  ⟨rfl, rfl, rfl, rfl, rfl, rfl, rfl, rfl, rfl, rfl, rfl, rfl, rfl, rfl, rfl, rfl, rfl⟩

end Sys2Proof
end

section
/-! SUPPORT. What an execution and a step keep, read from the seven effects of `exec_effect`: the counter, the parameters,
the range of `pc`, the canonical form of the regions, and the invariant made of them (spec/10_state.md R20 to R29,
spec/40_execution_loop.md R116, R122). -/

namespace Sys2Proof.Machine

/-! ### The counter (R29, R122) -/

/-- Settles O18: the budget check comes before the fetch, and below the bound a step that does not raise counts one. -/
theorem budgetIsCheckedFirst : Obligations.BudgetIsCheckedFirst := by
  intro s b hs hb
  refine ⟨fun hspent => ?spent, fun _ => ?left⟩
  case spent => exact step_of_budgetSpent hs (by simp [State.budgetSpent, hb, hspent])
  case left =>
    obtain ⟨t, ht⟩ := step_total s
    refine ⟨t, ht, ?_⟩
    rcases step_cases ht with ⟨hterm, _⟩ | ⟨_, c, rfl⟩ | ⟨_, _, i, u, _, hu, he, rfl⟩
    · exact absurd hs hterm
    · exact .inl ⟨c, rfl⟩
    · obtain ⟨hparams, _, _, hicount⟩ := exec_keeps hu
      have hcount : (∀ c, u.status ≠ .fault c) →
          (∀ c, u.counted.status ≠ .fault c) ∧ u.counted.icount = s.icount + 1 := fun hfault =>
        ⟨by rwa [State.counted_status], by rw [u.counted_icount_budget b (by rw [hparams, hb]) hfault, hicount]⟩
      rcases he.status_cases with ⟨c, rfl⟩ | rfl | hstatus
      · exact .inl ⟨c, s.counted_raise c⟩
      · exact .inr (hcount (by simp))
      · exact .inr (hcount (by simp [hstatus, hs]))

/-- Counting adds one at most. -/
theorem State.counted_icount_le (t : State) : t.counted.icount ≤ t.icount + 1 := by
  unfold State.counted
  split
  · exact Nat.le_succ _
  · exact Nat.le_succ _
  · exact le_refl _

/-! ### The parameters of the run (R20, R69, R303) -/

theorem step_keeps_params {s t : State} (h : step s = .next t) :
    t.program = s.program ∧ t.helpers = s.helpers ∧ t.params = s.params := by
  rcases step_cases h with ⟨_, rfl⟩ | ⟨_, c, rfl⟩ | ⟨_, _, i, u, _, hu, _, rfl⟩
  · exact ⟨rfl, rfl, rfl⟩
  · exact ⟨rfl, rfl, rfl⟩
  · obtain ⟨hparams, hprogram, hhelpers, _⟩ := exec_keeps hu
    exact ⟨by rw [State.counted_program, hprogram], by rw [State.counted_helpers, hhelpers],
      by rw [State.counted_params, hparams]⟩

/-- Settles O26. -/
theorem runParametersNeverChange : Obligations.RunParametersNeverChange := fun _ _ h => step_keeps_params h

/-! ### The program counter (R25, R26, R190, R191) -/

/-- An instruction is one slot long, or two. -/
theorem slots_cases (i : Instr) : i.slots = 1 ∨ i.slots = 2 := by
  cases i with
  | lddw => exact .inr rfl
  | _ => exact .inl rfl

theorem slots_of_jumpOff {i : Instr} {off : OffField} (h : i.jumpOff = some off) : i.slots = 1 := by
  cases i with
  | lddw => cases h
  | _ => rfl

theorem slots_of_storeShape {i : Instr} {w : RegField × OffField × Nat} (h : i.storeShape = some w) : i.slots = 1 := by
  cases i with
  | lddw => cases h
  | _ => rfl

/-- Only a store has a window. -/
theorem storeShape_of_storeWindow {i : Instr} {s : State} {w : Region × Nat × Nat} (h : storeWindow i s = some w) :
    ∃ shape, i.storeShape = some shape := by
  unfold storeWindow at h
  split at h
  · cases h
  · rename_i hshape
    exact ⟨_, hshape⟩

/-- Where an execution leaves `pc`: where it was, by `exit` or a fault; past the instruction; or at the target of a
jump. -/
theorem Effect.pc_cases {i : Instr} {s u : State} (h : Effect i s u) :
    ((i = .exit ∨ ∃ c, u = s.raise c) ∧ u.pc = s.pc) ∨ u.pc = s.pc + i.slots ∨
      ∃ off, i.jumpOff = some off ∧ u.pc = s.pc + 1 + off.toInt := by
  cases h with
  | raised c => exact .inl ⟨.inr ⟨c, rfl⟩, rfl⟩
  | finished hi => exact .inl ⟨.inl hi, rfl⟩
  | wrote d v _ => exact .inr (.inl rfl)
  | passed off hoff => exact .inr (.inl (by simp [slots_of_jumpOff hoff]))
  | jumped off hoff => exact .inr (.inr ⟨off, hoff, rfl⟩)
  | stored R k n v hw =>
    obtain ⟨_, hshape⟩ := storeShape_of_storeWindow hw
    exact .inr (.inl (by simp [slots_of_storeShape hshape]))
  | missed key hi =>
    subst hi
    exact .inr (.inl rfl)

/-- The range of R25: as far below the program and above it as one jump from inside it reaches. -/
def State.pcInRange (s : State) : Prop := -32768 ≤ s.pc ∧ s.pc ≤ (s.nslots : Int) + 32767

/-- An instruction fetched inside the program leaves `pc` in the range: a step of one or two slots, or one offset. -/
theorem Effect.pcInRange {i : Instr} {s u : State} (h : Effect i s u) (hlow : 0 ≤ s.pc) (hhigh : s.pc < s.nslots) :
    -32768 ≤ u.pc ∧ u.pc ≤ (s.nslots : Int) + 32767 := by
  rcases h.pc_cases with ⟨_, hpc⟩ | hpc | ⟨off, _, hpc⟩
  · omega
  · have hslots := slots_cases i
    omega
  · have hoffLow : -2 ^ 15 ≤ off.toInt := BitVec.le_toInt off
    have hoffHigh : off.toInt < 2 ^ 15 := BitVec.toInt_lt
    omega

theorem step_keeps_pcInRange {s t : State} (h : step s = .next t) (hs : s.pcInRange) : t.pcInRange := by
  have hnslots : t.nslots = s.nslots := by rw [State.nslots, (step_keeps_params h).1, State.nslots]
  rw [State.pcInRange, hnslots]
  rcases step_cases h with ⟨_, rfl⟩ | ⟨_, c, rfl⟩ | ⟨_, _, i, u, hf, _, he, rfl⟩
  · exact hs
  · exact hs
  · obtain ⟨hlow, hhigh, _⟩ := fetch_ok hf
    rw [State.counted_pc]
    exact he.pcInRange hlow hhigh

/-- Settles O25: only a `pc` inside the program is advanced or used as the origin of a jump. -/
theorem pcStaysInItsRange : Obligations.PcStaysInItsRange := fun _ _ _ hlow hhigh h =>
  step_keeps_pcInRange h ⟨hlow, hhigh⟩

/-- Settles O28, case by case of `Effect.pc_cases`. -/
theorem onlyJumpsMoveElsewhere : Obligations.OnlyJumpsMoveElsewhere := by
  intro i s t h
  obtain ⟨u, hu, he⟩ := exec_effect i s
  obtain rfl : u = t := Host.Outcome.next.inj (hu.symm.trans h)
  refine ⟨fun hnone => ?straight, fun off hoff => ?jump⟩
  case straight =>
    rcases he.pc_cases with ⟨_, hpc⟩ | hpc | ⟨off, hoff, _⟩
    · exact .inl hpc
    · exact .inr hpc
    · exact nomatch hnone.symm.trans hoff
  case jump =>
    rcases he.pc_cases with ⟨_, hpc⟩ | hpc | ⟨off', hoff', hpc⟩
    · exact .inl hpc
    · rw [slots_of_jumpOff hoff] at hpc
      exact .inr (.inl hpc)
    · obtain rfl : off = off' := Option.some.inj (hoff.symm.trans hoff')
      exact .inr (.inr hpc)

/-! ### The regions and the invariant (R34, R57, R111) -/

/-- An execution keeps the canonical form: the one effect on cells is a store inside its window. -/
theorem Effect.cellsWf {i : Instr} {s u : State} (h : Effect i s u) (hs : s.cellsWf) : u.cellsWf := by
  intro R
  cases h with
  | stored Q k n v hw =>
    have hin : k + (toBytes n v).length ≤ Q.size s.params := by
      rw [toBytes_length]
      exact storeWindow_some hw
    simpa using State.setBytes_cellsWf hin hs R
  | _ => simpa using hs R

theorem step_keeps_cellsWf {s t : State} (h : step s = .next t) (hs : s.cellsWf) : t.cellsWf := by
  rcases step_cases h with ⟨_, rfl⟩ | ⟨_, c, rfl⟩ | ⟨_, _, i, u, _, _, he, rfl⟩
  · exact hs
  · intro R
    simpa using hs R
  · intro R
    simpa using he.cellsWf hs R

theorem Inv.cellsWf {s : State} (h : Inv s) : s.cellsWf
  | .addressSpace => h.addressSpace
  | .stack => h.stack

/-- The counter clauses of the invariant: no budget, no count; a budget is not passed (R29, R122). -/
def State.countInBudget (s : State) : Prop :=
  (s.params.budget = none → s.icount = 0) ∧ ∀ b, s.params.budget = some b → s.icount ≤ b

theorem step_keeps_countInBudget {s t : State} (h : step s = .next t) (hs : s.countInBudget) : t.countInBudget := by
  rcases step_cases h with ⟨_, rfl⟩ | ⟨_, c, rfl⟩ | ⟨_, hspent, i, u, _, hu, _, rfl⟩
  · exact hs
  · exact hs
  · obtain ⟨hparams, _, _, hicount⟩ := exec_keeps hu
    obtain ⟨hzero, _⟩ := hs
    rw [State.countInBudget, State.counted_params]
    refine ⟨fun hnone => ?_, fun b hb => ?_⟩
    · rw [u.counted_no_budget hnone, hicount]
      exact hzero (hparams ▸ hnone)
    · have hleft : s.icount < b := State.budgetSpent_eq_false_iff.1 hspent b (hparams ▸ hb)
      have hcount := u.counted_icount_le
      omega

/-- A core that has steps to make was not rejected at load, so its program has whole slots (R111). -/
theorem step_keeps_slots {s t : State} (h : step s = .next t)
    (hs : s.program.length % 8 = 0 ∨ s.status = .fault .truncatedProgram) :
    t.program.length % 8 = 0 ∨ t.status = .fault .truncatedProgram := by
  rw [(step_keeps_params h).1]
  rcases hs with hwhole | hfault
  · exact .inl hwhole
  · obtain rfl : s = t := Host.Outcome.next.inj ((step_of_terminal (by simp [hfault])).symm.trans h)
    exact .inr hfault

/-- Settles O22, clause by clause of the invariant. -/
theorem stepKeepsTheInvariant : Obligations.StepKeepsTheInvariant := by
  intro s t hs h
  obtain ⟨_, hhelpers, hparams⟩ := step_keeps_params h
  have hcells : t.cellsWf := step_keeps_cellsWf h hs.cellsWf
  obtain ⟨hlow, hhigh⟩ : t.pcInRange := step_keeps_pcInRange h ⟨hs.pcLow, hs.pcHigh⟩
  obtain ⟨hzero, hbound⟩ : t.countInBudget := step_keeps_countInBudget h ⟨hs.uncounted, hs.counted⟩
  exact {
    legal := by rw [hparams]; exact hs.legal
    addressSpace := hcells .addressSpace
    stack := hcells .stack
    slots := step_keeps_slots h hs.slots
    pcLow := hlow
    pcHigh := hhigh
    uncounted := hzero
    counted := hbound
    keys := by rw [hhelpers]; exact hs.keys }

/-! ### One data write at most (R22, R26, R56, R118, R119, R276) -/

theorem destination_of_storeShape {i : Instr} (h : i.storeShape ≠ none) : i.destination = none := by
  cases i with
  | stw | sth | stb | stdw | stxw | stxh | stxb | stxdw => rfl
  | _ => exact absurd rfl h

theorem Effect.reg_of_ne_destination {i : Instr} {s u : State} (h : Effect i s u) {q : Reg}
    (hq : i.destination ≠ some q.field) : u.reg q = s.reg q := by
  cases h with
  | wrote d v hd =>
    have hne : q ≠ d := fun e => hq (e ▸ hd)
    simp [State.setReg_reg, hne]
  | _ => simp

theorem Effect.byteAt_of_not_inWindow {i : Instr} {s u : State} (h : Effect i s u) {Q : Region} {j : Nat}
    (hout : ¬ inWindow (storeWindow i s) Q j) : u.byteAt Q j = s.byteAt Q j := by
  cases h with
  | stored R k n v hw =>
    have hout' : ¬ (Q = R ∧ k ≤ j ∧ j < k + (toBytes n v).length) := by
      rw [toBytes_length]
      exact fun hin => hout ⟨R, k, n, hw, hin⟩
    rw [State.advance_byteAt, State.byteAt_setBytes, if_neg hout']
  | _ => simp

theorem Effect.events_cases {i : Instr} {s u : State} (h : Effect i s u) :
    u.events = s.events ∨ ∃ key, i = .call key ∧ u.events = s.events ++ [.helperMiss key] := by
  cases h with
  | missed key hi => exact .inr ⟨key, hi, rfl⟩
  | _ => exact .inl (by simp)

/-- Only `exit` returns. -/
theorem Effect.status_eq_or_exit_or_raised {i : Instr} {s u : State} (h : Effect i s u) :
    u.status = s.status ∨ (i = .exit ∧ u = s.finish) ∨ ∃ c, u = s.raise c := by
  cases h with
  | raised c => exact .inr (.inr ⟨c, rfl⟩)
  | finished hi => exact .inr (.inl ⟨hi, rfl⟩)
  | _ => exact .inl (by simp)

/-- A window is where the address translates to, for a store whose fields name registers. -/
theorem storeWindow_eq_some {i : Instr} {s : State} {R : Region} {k n : Nat} (h : storeWindow i s = some (R, k, n)) :
    ∃ d off, i.storeShape = some (Reg.field d, off, n) ∧ (∀ f ∈ i.usedSrc, RegField.names f) ∧
      translateAccess s.params reachBoth (offAddress (s.reg d) off) n = some (R, k) := by
  unfold storeWindow at h
  split at h
  · cases h
  · rename_i base off m hshape
    split at h
    · cases h
    · rename_i d hd
      obtain rfl := regOfField_eq_some.1 hd
      split at h
      · rename_i hnames
        obtain ⟨⟨Q, j⟩, ht, he⟩ := Option.map_eq_some_iff.1 h
        cases he
        exact ⟨d, off, hshape, hnames, ht⟩
      · cases h

theorem exists_reg_of_names {f : RegField} (h : RegField.names f) : ∃ r : Reg, f = r.field := by
  cases hr : regOfField f with
  | some r => exact ⟨r, regOfField_eq_some.1 hr⟩
  | none => exact absurd (regOfField_eq_none.1 hr) (not_lt.2 h)

/-- The two forms of a store with a window go on to the next slot, so neither of them faults. -/
theorem exec_pc_of_storeWindow {i : Instr} {s : State} {w : Region × Nat × Nat} (h : storeWindow i s = some w) :
    ∃ t, exec i s = .next t ∧ t.pc = s.pc + 1 := by
  obtain ⟨R, k, n⟩ := w
  obtain ⟨d, off, hshape, hnames, ht⟩ := storeWindow_eq_some h
  cases i with
  | stw dst _ imm | sth dst _ imm | stb dst _ imm | stdw dst _ imm =>
    cases hshape
    obtain ⟨t, hstore, hframe⟩ := LoadStore.storeAt_storesBytes ht (sextImm imm)
    exact ⟨t, (LoadStore.storeImm_field _ d off imm s).trans hstore, hframe.pc⟩
  | stxw dst _ src | stxh dst _ src | stxb dst _ src | stxdw dst _ src =>
    cases hshape
    obtain ⟨r, rfl⟩ := exists_reg_of_names (hnames src rfl)
    obtain ⟨t, hstore, hframe⟩ := LoadStore.storeAt_storesBytes ht (s.reg r)
    exact ⟨t, (LoadStore.storeReg_field _ d r off s).trans hstore, hframe.pc⟩
  | _ => cases hshape

/-- A fault leaves `pc`, so an instruction that faulted had no window. -/
theorem storeWindow_of_fault {i : Instr} {s : State} {c : Cause} (h : exec i s = .next (s.raise c)) :
    storeWindow i s = none := by
  cases hw : storeWindow i s with
  | none => rfl
  | some w =>
    obtain ⟨t, ht, hpc⟩ := exec_pc_of_storeWindow hw
    obtain rfl : t = s.raise c := Host.Outcome.next.inj (ht.symm.trans h)
    rw [State.raise_pc] at hpc
    omega

/-- Settles O27: each clause is a fact about the effects, but for the window of a fault (`storeWindow_of_fault`). -/
theorem atMostOneDataWrite : Obligations.AtMostOneDataWrite := by
  intro i s t h
  obtain ⟨hparams, hprogram, hhelpers, hicount⟩ := exec_keeps h
  obtain ⟨u, hu, he⟩ := exec_effect i s
  obtain rfl : u = t := Host.Outcome.next.inj (hu.symm.trans h)
  have hpc : u.pc = s.pc + i.slots ∨ (∃ off, i.jumpOff = some off ∧ u.pc = s.pc + 1 + off.toInt) ∨
      (i = .exit ∧ u.pc = s.pc) ∨ ∃ c, u = s.raise c := by
    rcases he.pc_cases with ⟨hexit | hfault, hpc⟩ | hpc | hjump
    · exact .inr (.inr (.inl ⟨hexit, hpc⟩))
    · exact .inr (.inr (.inr hfault))
    · exact .inl hpc
    · exact .inr (.inl hjump)
  exact ⟨fun _ hq => he.reg_of_ne_destination hq, fun _ _ hout => he.byteAt_of_not_inWindow hout,
    destination_of_storeShape, he.events_cases, he.status_eq_or_exit_or_raised, hpc,
    fun c hc => storeWindow_of_fault (h.trans (congrArg Host.Outcome.next hc)), hicount, hparams, hprogram, hhelpers⟩

end Sys2Proof.Machine
end

section
/-! SUPPORT. The instruction counter is never read and never written by an instruction (spec/10_state.md R29,
spec/70_reset_and_hazards.md R287): setting it is a change of the state that no operation observes. -/

namespace Sys2Proof.Machine

/-- The state with another counter. -/
def State.withCount (n : Nat) (s : State) : State := { s with icount := n }

theorem State.setBytes_withCount (n : Nat) (s : State) (R : Region) (k : Nat) (bs : List Byte) :
    (s.withCount n).setBytes R k bs = (s.setBytes R k bs).withCount n := by
  induction bs generalizing s k with
  | nil => rfl
  | cons b bs ih =>
    have hb : (s.withCount n).setByte R k b = (s.setByte R k b).withCount n := by cases R <;> rfl
    rw [State.setBytes, State.setBytes, hb, ih]

theorem unobserved_withCount (n : Nat) : Unobserved (State.withCount n) where
  reg _ _ := rfl
  byteAt _ R _ := by cases R <;> rfl
  params _ := rfl
  helpers _ := rfl
  setReg _ _ _ := rfl
  setBytes := State.setBytes_withCount n
  advance _ _ := rfl
  jump _ _ := rfl
  emit _ _ := rfl
  raise _ _ := rfl
  finish _ := rfl

/-- Settles O30: executions keep the counter, and setting it commutes with them. -/
theorem counterIsUnobservable : Obligations.CounterIsUnobservable := by
  intro i s t n h
  obtain ⟨_, _, _, hicount⟩ := exec_keeps h
  refine ⟨hicount, ?_⟩
  calc exec i (s.withCount n)
      = mapNext (State.withCount n) (exec i s) := (unobserved_withCount n).exec_commutes i s
    _ = .next (t.withCount n) := by rw [h, mapNext]

end Sys2Proof.Machine
end

section
/-! SUPPORT. The 64-bit ALU family (spec/41_alu64.md R130 to R158) by the forms and the operations that the 32-bit family
was proved with, the form with one operand, and `lddw` (spec/45_load_store.md R231). -/

namespace Sys2Proof.Machine

open Sys2Proof.Claims Alu32

/-- Settles O35: the immediate form, with each operation computing its function. -/
theorem alu64ImmediateForms : Obligations.Alu64ImmediateForms :=
  ⟨aluImmRule_of_exec computes_add (fun _ => rfl) fun _ _ _ => rfl,
    aluImmRule_of_exec computes_sub (fun _ => rfl) fun _ _ _ => rfl,
    aluImmRule_of_exec computes_mul (fun _ => rfl) fun _ _ _ => rfl,
    aluImmRule_of_exec computes_or (fun _ => rfl) fun _ _ _ => rfl,
    aluImmRule_of_exec computes_and (fun _ => rfl) fun _ _ _ => rfl,
    aluImmRule_of_exec computes_lsh (fun _ => rfl) fun _ _ _ => rfl,
    aluImmRule_of_exec computes_rsh (fun _ => rfl) fun _ _ _ => rfl,
    aluImmRule_of_exec computes_xor (fun _ => rfl) fun _ _ _ => rfl,
    aluImmRule_of_exec computes_mov (fun _ => rfl) fun _ _ _ => rfl,
    aluImmRule_of_exec computes_arsh (fun _ => rfl) fun _ _ _ => rfl⟩

/-- Settles O36: the register form, with the same ten operations. -/
theorem alu64RegisterForms : Obligations.Alu64RegisterForms :=
  ⟨aluRegRule_of_exec computes_add (fun _ => rfl) fun _ _ _ => rfl,
    aluRegRule_of_exec computes_sub (fun _ => rfl) fun _ _ _ => rfl,
    aluRegRule_of_exec computes_mul (fun _ => rfl) fun _ _ _ => rfl,
    aluRegRule_of_exec computes_or (fun _ => rfl) fun _ _ _ => rfl,
    aluRegRule_of_exec computes_and (fun _ => rfl) fun _ _ _ => rfl,
    aluRegRule_of_exec computes_lsh (fun _ => rfl) fun _ _ _ => rfl,
    aluRegRule_of_exec computes_rsh (fun _ => rfl) fun _ _ _ => rfl,
    aluRegRule_of_exec computes_xor (fun _ => rfl) fun _ _ _ => rfl,
    aluRegRule_of_exec computes_mov (fun _ => rfl) fun _ _ _ => rfl,
    aluRegRule_of_exec computes_arsh (fun _ => rfl) fun _ _ _ => rfl⟩

/-- Settles O37: the two forms that test the divisor, with the quotient and the remainder. -/
theorem divideAndRemainder64 : Obligations.DivideAndRemainder64 :=
  ⟨divImmRule_of_exec computes_div (fun _ => rfl) fun _ _ _ => rfl,
    divRegRule_of_exec computes_div (fun _ => rfl) fun _ _ _ => rfl,
    divImmRule_of_exec computes_mod (fun _ => rfl) fun _ _ _ => rfl,
    divRegRule_of_exec computes_mod (fun _ => rfl) fun _ _ _ => rfl⟩

/-! ### One operand (R83, R130, R150, R180) -/

theorem negResult_eq_word (a : Word) : negResult a = word (negVal a.toNat) := by
  have hneg : (negResult a).toNat = negVal a.toNat := by
    rw [negResult, negVal, BitVec.toNat_neg]
    omega
  rw [← hneg, word_toNat]

theorem masked1_negResult_eq_word (a : Word) : masked1 negResult a = word (negVal a.toNat &&& 0xFFFFFFFF) := by
  rw [masked1, mask32, negResult_eq_word, word, word, BitVec.ofNat_and]

theorem aluUnary_field (op : Word → Word) (d : Reg) (s : State) :
    aluUnary op d.field s = .next ((s.setReg d (op (s.reg d))).advance 1) :=
  withReg_field d s _

theorem aluUnaryRule_of_exec {code : Byte} {mk : RegField → Instr} {op : Word → Word} {f : Nat → Nat}
    (hop : ∀ a, op a = word (f a.toNat))
    (hdecode : ∀ w : Slot, decodeSlot { w with opcode := code } = some (mk w.dst))
    (hexec : ∀ dst s, exec (mk dst) s = aluUnary op dst s) : AluUnaryRule code mk f := by
  refine ⟨decodesAs_of_decodeSlot hdecode, fun d s => ?_, fun v s hbad => ?_⟩
  · rw [hexec, aluUnary_field, ← hop]
    exact ⟨_, rfl, writesReg_setReg s d _⟩
  · rw [hexec]
    exact withReg_invalid hbad s _

/-- Settles O41: the form with one operand at both widths. -/
theorem negateBothWidths : Obligations.NegateBothWidths :=
  ⟨aluUnaryRule_of_exec negResult_eq_word (fun _ => rfl) fun _ _ => rfl,
    aluUnaryRule_of_exec masked1_negResult_eq_word (fun _ => rfl) fun _ _ => rfl⟩

/-! ### `lddw` (R94, R231) -/

/-- A register write and a move of any number of slots. -/
theorem writesReg_setReg_advance (s : State) (d : Reg) (v : Word) (n : Int) :
    WritesReg s ((s.setReg d v).advance n) d v (s.pc + n) where
  dest := by simp
  others q hq := by simp [State.setReg_reg, hq]
  pc := by simp
  bytes R k := by simp
  rest := by constructor <;> simp

theorem loadWide_field (d : Reg) (imm imm2 : ImmField) (s : State) :
    loadWide d.field imm imm2 s = .next ((s.setReg d (word (imm.toNat + imm2.toNat * 2 ^ 32))).advance 2) := by
  rw [loadWide, withReg_field, LoadStore.zextImm_toNat, LoadStore.zextImm_toNat, word]

/-- Settles O50: the decoder's two answers to the opcode of `lddw`, and the register write two slots on. -/
theorem wideImmediateLoad : Obligations.WideImmediateLoad :=
  ⟨fun _ v rest => decode_lddw rfl v rest, fun _ _ hshort => decode_lddw_noSecondSlot rfl hshort,
    fun d imm imm2 s => ⟨_, loadWide_field d imm imm2 s, writesReg_setReg_advance s d _ 2⟩,
    fun _ _ _ s hbad => withReg_invalid hbad s _⟩

end Sys2Proof.Machine
end

section
/-! SUPPORT. The register fields, the register file and the reset state (spec/10_state.md R21, R23, R36,
spec/30_encoding.md R86). -/

namespace Sys2Proof.Machine

theorem field_toNat (r : Reg) : r.field.toNat = r.index := by cases r <;> rfl

theorem index_le (r : Reg) : r.index ≤ 10 := by cases r <;> decide

/-- Settles O5: a field reads as a register exactly where it is the field of one. -/
theorem fieldsNameRegisters : Obligations.FieldsNameRegisters := by
  refine ⟨fun v => ?_, fun r => ⟨regOfField_field r, field_toNat r, index_le r⟩⟩
  cases hv : regOfField v with
  | some r =>
    obtain rfl := regOfField_eq_some.1 hv
    exact .inl ⟨names_field r, r, rfl, (field_toNat r).symm, rfl⟩
  | none => exact .inr ⟨regOfField_eq_none.1 hv, rfl⟩

/-- Settles O7. -/
theorem registerFileReadsBack : Obligations.RegisterFileReadsBack := fun s r q v => s.setReg_reg r q v

/-- In the reference configuration `MEM_BASE` is zero, so register 1 is no exception (R314). -/
theorem reset_reg_of_ne {r : Reg} (h : r ≠ .r10) : State.reset.reg r = 0 := by
  by_cases h1 : r = .r1
  · subst h1
    rfl
  · exact RegFile.reset_get_of_ne Params.reference h1 h

/-- Settles O8. Nothing is listed, so every byte of the Address Space reads as zero (log entry 5); the rest is what the
reset state writes down. -/
theorem resetLeavesReferenceValues : Obligations.ResetLeavesReferenceValues :=
  ⟨rfl, fun _ => reset_reg_of_ne, rfl, fun k => State.byteAt_addressSpace State.reset k, rfl, rfl, rfl, rfl, rfl, rfl, rfl,
    rfl, rfl, rfl⟩

end Sys2Proof.Machine
end
